-- ==== Sys2Proof/Word.lean ====
section
/-! DEFINITION. The words of the block: the 64-bit limb and host word, the 128-bit half, and the value
view of a 256-bit register (00_scope.md R8, R10, R11; widths of R6 and R7). -/

namespace Sys2Proof

/-- A limb, a host data word, a command word: 64 bits, bit 0 least significant (R8). -/
abbrev Word64 := BitVec 64

/-- The value view of a 128-bit half (R11). -/
abbrev Half := BitVec 128

/-- The value view `val(X)` of a 256-bit register (R10): position `i` is bit `255 - i`. -/
abbrev Wide := BitVec 256

/-- A word index of the host register space, 0x00 to 0x1F (R50). -/
abbrev WordIndex := BitVec 5

/-- The 6-bit header of a host transaction: `WE` in bit 5, `WIDX` in bits 4:0 (R71). -/
abbrev Header := BitVec 6

end Sys2Proof
end

