-- ==== Sys2Proof/Syntax.lean ====
section
/-! DEFINITION. The instructions of the block: the two host transactions and the six commands, one
constructor for each row of spec/opcode_table.json (30_encoding.md R70, R74). -/

namespace Sys2Proof

/-- What the host can have the block do in one transaction. A command constructor stands for the
`HWRITE CMD, w` that carries its command word (R78). -/
inductive Instr where
  /-- `HREAD`: host read of word index `i` (R171); `wdata` is ignored (R71). -/
  | hread (i : WordIndex)
  /-- `HWRITE`: host write of `d` to word index `i` (R170). -/
  | hwrite (i : WordIndex) (d : Word64)
  /-- `NOP`: acknowledge errors (R173). -/
  | nop
  /-- `EVOLVE rule, gen` (R108). -/
  | evolve (rule : BitVec 8) (gen : BitVec 32)
  /-- `KEYSCHED` (R125). -/
  | keysched
  /-- `ENCRYPT` (R151). -/
  | encrypt
  /-- `DECRYPT` (R152). -/
  | decrypt
  /-- `CLEAR`: soft reset (R174). -/
  | clear
deriving DecidableEq, Repr

end Sys2Proof
end

