-- ==== Sys2Proof/WellFormed.lean ====
section
/-! DEFINITION. Legal command words (R75) and the one check on a written instruction: a command is
written as its own constructor, not as a raw write of its word to CMD. -/

namespace Sys2Proof

/-- One legal pattern of R75: the words `w` with `w &&& mask = pattern`. -/
structure CommandRow where
  pattern : Word64
  mask : Word64
deriving DecidableEq, Repr

/-- The match and mask pairs of R75, in the order of R74: NOP, EVOLVE, KEYSCHED, ENCRYPT, DECRYPT,
CLEAR. -/
def commandRows : List CommandRow :=
  [⟨0x0000000000000000#64, 0xFFFFFFFFFFFFFFFF#64⟩,
   ⟨0x0000000000000001#64, 0xFFFF0000000000FF#64⟩,
   ⟨0x0000000000000002#64, 0xFFFFFFFFFFFFFFFF#64⟩,
   ⟨0x0000000000000003#64, 0xFFFFFFFFFFFFFFFF#64⟩,
   ⟨0x0000000000000004#64, 0xFFFFFFFFFFFFFFFF#64⟩,
   ⟨0x0000000000000005#64, 0xFFFFFFFFFFFFFFFF#64⟩]

/-- `legal(w)` of R75. -/
def legalWord (w : Word64) : Bool :=
  commandRows.any fun r => w &&& r.mask == r.pattern

/-- An `HWRITE` to CMD (word index 0x00) of a legal command word is another spelling of that command
(R78); every other term is well formed. Fields of the wrong width cannot be written at all. -/
def Instr.wellFormed : Instr → Bool
  | .hread _ => true
  | .hwrite i d => !(i == 0#5 && legalWord d)
  | .nop => true
  | .evolve _ _ => true
  | .keysched => true
  | .encrypt => true
  | .decrypt => true
  | .clear => true

end Sys2Proof
end

