-- ==== Sys2Proof/Decode.lean ====
section
/-! DEFINITION. The decoders of the two encoded forms (30_encoding.md R70 to R77), total on every header
and every command word, and the encoder back. -/

namespace Sys2Proof

/-- The two encoded forms of R70: a host transaction (header and data) and a command word. -/
inductive Form where
  /-- Format `HT`: the 6-bit header and the 64-bit data (R71). -/
  | ht (h : Header) (d : Word64)
  /-- Format `CW`: the data of an HWRITE to CMD (R72). -/
  | cw (w : Word64)
deriving DecidableEq, Repr

/-- What a legal command word says (R74). -/
inductive Command where
  | nop
  | evolve (rule : BitVec 8) (gen : BitVec 32)
  | keysched
  | encrypt
  | decrypt
  | clear
deriving DecidableEq, Repr

/-- Why a command word is illegal (R76). -/
inductive DecodeError where
  /-- `OP` is 0x6 to 0xF. -/
  | reservedOpcode
  /-- `RSV0`, bits 7:4, is not 0. -/
  | nonzeroRsv0
  /-- `RSV1`, bits 63:48, is not 0. -/
  | nonzeroRsv1
  /-- `RULE` or `GEN` is not 0 with an opcode other than EVOLVE. -/
  | nonzeroField
deriving DecidableEq, Repr

/-- `OP = w[3:0]` (R72, R73). -/
def opField (w : Word64) : BitVec 4 := w.extractLsb' 0 4

/-- `RSV0 = w[7:4]` (R72). -/
def rsv0Field (w : Word64) : BitVec 4 := w.extractLsb' 4 4

/-- `RULE = w[15:8]` (R72, R73). -/
def ruleField (w : Word64) : BitVec 8 := w.extractLsb' 8 8

/-- `GEN = w[47:16]` (R72, R73). -/
def genField (w : Word64) : BitVec 32 := w.extractLsb' 16 32

/-- `RSV1 = w[63:48]` (R72). -/
def rsv1Field (w : Word64) : BitVec 16 := w.extractLsb' 48 16

/-- A command without fields: `RULE` and `GEN` must be 0 (R72). -/
def plainCommand (w : Word64) (c : Command) : Except DecodeError Command :=
  if ruleField w = 0#8 ∧ genField w = 0#32 then .ok c else .error .nonzeroField

/-- The command a command word stands for, or why it is illegal (R72 to R76). -/
def decodeCommand (w : Word64) : Except DecodeError Command :=
  if rsv0Field w ≠ 0#4 then .error .nonzeroRsv0
  else if rsv1Field w ≠ 0#16 then .error .nonzeroRsv1
  else if opField w = 0x0#4 then plainCommand w .nop
  else if opField w = 0x1#4 then .ok (.evolve (ruleField w) (genField w))
  else if opField w = 0x2#4 then plainCommand w .keysched
  else if opField w = 0x3#4 then plainCommand w .encrypt
  else if opField w = 0x4#4 then plainCommand w .decrypt
  else if opField w = 0x5#4 then plainCommand w .clear
  else .error .reservedOpcode

/-- The instruction of a command. -/
def Command.toInstr : Command → Instr
  | .nop => .nop
  | .evolve r g => .evolve r g
  | .keysched => .keysched
  | .encrypt => .encrypt
  | .decrypt => .decrypt
  | .clear => .clear

/-- A host transaction by its header: every one of the 64 headers is valid (R71, R73). -/
def decodeTransaction (h : Header) (d : Word64) : Instr :=
  if h.getLsbD 5 then .hwrite (h.extractLsb' 0 5) d else .hread (h.extractLsb' 0 5)

/-- The instruction of an encoded form. -/
def decode : Form → Except DecodeError Instr
  | .ht h d => .ok (decodeTransaction h d)
  | .cw w => (decodeCommand w).map Command.toInstr

/-- The transaction presented on the port, read to the end: a write to CMD of a legal command word is
that command (R78), anything else is the plain transaction. -/
def decodePort (h : Header) (d : Word64) : Instr :=
  match decodeTransaction h d with
  | .hwrite i w =>
    if i = 0#5 then
      match decodeCommand w with
      | .ok c => c.toInstr
      | .error _ => .hwrite i w
    else .hwrite i w
  | i => i

/-- The command word of a command (R72, R74, R78). -/
def encodeCommand : Command → Word64
  | .nop => 0x0000000000000000#64
  | .evolve r g => (0#16 ++ g ++ r ++ 0#4 ++ 0x1#4 : BitVec (16 + 32 + 8 + 4 + 4))
  | .keysched => 0x0000000000000002#64
  | .encrypt => 0x0000000000000003#64
  | .decrypt => 0x0000000000000004#64
  | .clear => 0x0000000000000005#64

/-- The encoding of an instruction (R71, R72, R78). An HREAD's data is ignored; it is written as 0. -/
def encode : Instr → Form
  | .hread i => .ht (0#1 ++ i) 0#64
  | .hwrite i d => .ht (1#1 ++ i) d
  | .nop => .cw (encodeCommand .nop)
  | .evolve r g => .cw (encodeCommand (.evolve r g))
  | .keysched => .cw (encodeCommand .keysched)
  | .encrypt => .cw (encodeCommand .encrypt)
  | .decrypt => .cw (encodeCommand .decrypt)
  | .clear => .cw (encodeCommand .clear)

/-- The encoded form whose bits are `w`, as the opcode table numbers them: up to 8 bits an HT header
(its data then 0), 64 bits a command word, 72 bits an HT header in the first byte and its data in the
next 64 bits. Header bits 7:6 do not exist and must be 0 (DESIGN CHOICE, notes/assumptions/7.md). -/
def formOfTableWord (nbits w : Nat) : Option Form :=
  if nbits ≤ 8 then
    if w < 64 then some (.ht (BitVec.ofNat 6 w) 0#64) else none
  else if nbits = 64 then
    if w < 2 ^ 64 then some (.cw (BitVec.ofNat 64 w)) else none
  else if nbits = 72 then
    if w % 256 < 64 ∧ w < 2 ^ 72 then some (.ht (BitVec.ofNat 6 w) (BitVec.ofNat 64 (w / 256))) else none
  else none

/-- The instruction the decoder reads from a word of the opcode table; none where it refuses. -/
def decodeTableWord (nbits w : Nat) : Option Instr :=
  match formOfTableWord nbits w with
  | none => none
  | some f =>
    match decode f with
    | .ok i => some i
    | .error _ => none

end Sys2Proof
end

