-- ==== Sys2Proof/Config.lean ====
section
/-! DEFINITION. What an implementation of the block fixes: the constants of R6, and the parameters and
values the spec leaves open, each an opaque constant no proof can evaluate (R7, R24, R25, R227, R229). -/

namespace Sys2Proof.Config

/-- `RULE30`: table[7..0] = 0,0,0,1,1,1,1,0 (R6), as a `RULE` value 0x1E (R105). -/
def rule30 : BitVec 8 := 0b00011110#8

/-- `CA_PASS_GENS`: generations of one CA256 pass (R6, R106). -/
def caPassGens : Nat := 255

/-- `ROUNDS`: outer Feistel rounds (R6, R143). -/
def rounds : Nat := 16

/-- The unspecified 64-bit values the host may see on `rdata` (R24, R25, R224, R229; 93 I1, I4): the
`n`-th draw. Nothing is known of any of them (DESIGN CHOICE, notes/assumptions/2.md). -/
opaque freeWord : Nat → Word64

/-- `BASE`: where the host platform places the register space (R7, R54, R59). Open
(DESIGN CHOICE, notes/assumptions/9.md). -/
opaque base : Nat

/-- Clock cycles EVOLVE takes beyond the first, for each generation count. Open (R7, R227;
DESIGN CHOICE, notes/assumptions/13.md). -/
opaque extraEvolve : BitVec 32 → Nat

/-- Clock cycles KEYSCHED takes beyond the first. Open (R7, R227). -/
opaque extraKeysched : Nat

/-- Clock cycles ENCRYPT and DECRYPT take beyond the first. Open (R7, R227). -/
opaque extraCrypt : Nat

/-- `LAT_EVOLVE(g)`: finite and at least 1 (R227). -/
def latEvolve (g : BitVec 32) : Nat := extraEvolve g + 1

/-- `LAT_KEYSCHED`: finite and at least 1 (R227). -/
def latKeysched : Nat := extraKeysched + 1

/-- `LAT_CRYPT`: finite and at least 1 (R227). -/
def latCrypt : Nat := extraCrypt + 1

end Sys2Proof.Config
end

