-- ==== Sys2Proof/Machine/State.lean ====
section
/-! DEFINITION. The state of the block as plain data: every register and flag of 10_state.md, the
in-flight record of R37, and beside them what the port carries at the coming clock edges. -/

namespace Sys2Proof.Machine

/-- A 256-bit register as its four limbs in order (R9). -/
structure Reg where
  l0 : Word64
  l1 : Word64
  l2 : Word64
  l3 : Word64
deriving DecidableEq, Repr

/-- The register of zeros. -/
def Reg.zero : Reg := ⟨0#64, 0#64, 0#64, 0#64⟩

/-- The ScheduledKey held in the SK file, "four Registers {K1,K2,K3,K4}" (R25). -/
structure ScheduledKey where
  k1 : Reg
  k2 : Reg
  k3 : Reg
  k4 : Reg
deriving DecidableEq, Repr

/-- The SK file of zeros (R41). -/
def ScheduledKey.zero : ScheduledKey := ⟨Reg.zero, Reg.zero, Reg.zero, Reg.zero⟩

/-- The values `STATUS.ERR` can hold (R201); codes 5 to 15 are reserved and never produced
(DEDUCED, notes/assumptions/6.md). -/
inductive ErrCode where
  /-- 0: accepted, NOP, CLEAR or reset. -/
  | ok
  /-- 1: an operand word was not supplied (R202). -/
  | invalidLength
  /-- 2: named by the source, never raised (R203). -/
  | allocationFailure
  /-- 3: no ScheduledKey (R204). -/
  | noKey
  /-- 4: the command word is not legal (R205). -/
  | illegalCmd
deriving DecidableEq, Repr

/-- The in-flight record of R37: which command was accepted, the copy of its operand, and for EVOLVE
its rule table and generation count. -/
inductive InFlight where
  | evolve (x : Reg) (rule : BitVec 8) (gen : BitVec 32)
  | keysched (k : Reg)
  | encrypt (p : Reg)
  | decrypt (c : Reg)
deriving DecidableEq, Repr

/-- The signals `we`, `widx` and `wdata` of a transaction presented with `req = 1` (R51). -/
structure Transaction where
  we : Bool
  widx : WordIndex
  wdata : Word64
deriving DecidableEq, Repr

/-- One rising edge of `clk` (R51, R64): the level of `rst`, the transaction presented (none when
`req = 0`), and whether the engine's completion step for a command in flight occurs at this edge. The
last is the moment the spec leaves open (R175, R227; DESIGN CHOICE, notes/assumptions/1.md). -/
structure ClockEdge where
  rst : Bool
  txn : Option Transaction
  completes : Bool
deriving DecidableEq, Repr

/-- The block. `rdata`, `draws` and `port` are not architectural state: the first is the port's output,
the second numbers the unspecified values drawn so far, the third is what the outside world will do. -/
structure State where
  /-- KEY0..KEY3 (R22). -/
  key : Reg
  /-- DIN0..DIN3 (R23). -/
  din : Reg
  /-- DOUT0..DOUT3 (R24). -/
  dout : Reg
  /-- The SK file (R25). -/
  sk : ScheduledKey
  /-- STATUS.DONE (R29). -/
  done : Bool
  /-- STATUS.SK_VALID (R30). -/
  skValid : Bool
  /-- STATUS.BUSYERR (R31). -/
  busyErr : Bool
  /-- STATUS.KEY_VALID[3:0] (R32). -/
  keyValid : BitVec 4
  /-- STATUS.DIN_VALID[3:0] (R33). -/
  dinValid : BitVec 4
  /-- STATUS.ERR (R34, R201). -/
  err : ErrCode
  /-- The command in flight (R37); STATUS.BUSY is 1 exactly when there is one (R28;
  DEDUCED, notes/assumptions/5.md). -/
  inflight : Option InFlight
  /-- The port's `rdata` in the cycle after the last edge (R51, R229). -/
  rdata : Word64
  /-- How many unspecified values have been drawn (the model's own). -/
  draws : Nat
  /-- What the port carries at the coming edges, the next first (the model's own). -/
  port : List ClockEdge
deriving DecidableEq, Repr

/-- Why a step could stop with a fault: the block has no fault ("no access is ever refused or faulted",
R212; an accepted command cannot fail, R208), so no reason exists and nothing can raise one
(DEDUCED, notes/assumptions/10.md). -/
inductive Fault where
deriving DecidableEq, Repr

/-- Why an instruction could be refused. -/
inductive Refusal where
  /-- An instruction with no meaning in this model, by its mnemonic. Raised by no arm: every row of the
  opcode table has its meaning. Safe. -/
  | notModelled (mnemonic : String)
deriving DecidableEq, Repr

/-- The block right after reset (R41, R220, R221). `rdata` is not given by the spec: 0 is a DESIGN
CHOICE (notes/assumptions/3.md), as is `draws` (notes/assumptions/2.md); no transaction is pending
(notes/assumptions/4.md). -/
def State.reset : State where
  key := Reg.zero
  din := Reg.zero
  dout := Reg.zero
  sk := ScheduledKey.zero
  done := false
  skValid := false
  busyErr := false
  keyValid := 0#4
  dinValid := 0#4
  err := .ok
  inflight := none
  rdata := 0#64
  draws := 0
  port := []

end Sys2Proof.Machine
end

