-- ==== Sys2Proof/Machine/Operands.lean ====
section
/-! DEFINITION. Operand assembly: the register map of R35, limbs of a register, its value view and its
cells (R9, R10), halves and concatenation (R11). -/

namespace Sys2Proof.Machine

/-- The registers of the map of R35. Limb `m` and subkey `j` count from 0, so `sk j m` is the spec's
`SK(j+1)_m`. -/
inductive HostReg where
  | cmd
  | status
  | reserved
  | key (m : BitVec 2)
  | din (m : BitVec 2)
  | dout (m : BitVec 2)
  | sk (j m : BitVec 2)
deriving DecidableEq, Repr

/-- The register at a word index (R35). -/
def hostReg (i : WordIndex) : HostReg :=
  if i = 0x00#5 then .cmd
  else if i = 0x01#5 then .status
  else if i ≤ 0x03#5 then .reserved
  else if i ≤ 0x07#5 then .key (i.extractLsb' 0 2)
  else if i ≤ 0x0B#5 then .din (i.extractLsb' 0 2)
  else if i ≤ 0x0F#5 then .dout (i.extractLsb' 0 2)
  else .sk (i.extractLsb' 2 2) (i.extractLsb' 0 2)

/-- DOUT and the SK file: the registers a read finds unspecified while BUSY = 1 (R24, R25). -/
def HostReg.isResult : HostReg → Bool
  | .dout _ => true
  | .sk _ _ => true
  | .cmd => false
  | .status => false
  | .reserved => false
  | .key _ => false
  | .din _ => false

/-- CMD, KEY and DIN: the registers whose writes BUSY = 1 ignores (R31). -/
def HostReg.isGuarded : HostReg → Bool
  | .cmd => true
  | .key _ => true
  | .din _ => true
  | .status => false
  | .reserved => false
  | .dout _ => false
  | .sk _ _ => false

/-- Byte address of a word index in the host's map: `BASE + 8·w` (R54, R59). -/
def hostByteAddress (i : WordIndex) : Nat := Config.base + 8 * i.toNat

/-- Limb `m` of a register (R9). -/
def Reg.limb (x : Reg) (m : BitVec 2) : Word64 :=
  if m = 0#2 then x.l0 else if m = 1#2 then x.l1 else if m = 2#2 then x.l2 else x.l3

/-- The register with limb `m` replaced. -/
def Reg.setLimb (x : Reg) (m : BitVec 2) (v : Word64) : Reg :=
  if m = 0#2 then { x with l0 := v }
  else if m = 1#2 then { x with l1 := v }
  else if m = 2#2 then { x with l2 := v }
  else { x with l3 := v }

/-- The value view of R10: limb 0 in the most significant 64 bits. -/
def Reg.val (x : Reg) : Wide := (x.l0 ++ x.l1 ++ x.l2 ++ x.l3 : BitVec (64 + 64 + 64 + 64))

/-- The register of a value view (R10). -/
def Reg.ofVal (v : Wide) : Reg :=
  ⟨v.extractLsb' 192 64, v.extractLsb' 128 64, v.extractLsb' 64 64, v.extractLsb' 0 64⟩

/-- Subkey `j`, counting from 0, of the SK file (R25). -/
def ScheduledKey.subkey (sk : ScheduledKey) (j : BitVec 2) : Reg :=
  if j = 0#2 then sk.k1 else if j = 1#2 then sk.k2 else if j = 2#2 then sk.k3 else sk.k4

/-- `cell(X, i)`: the bit at position `i mod 256`, which is bit `255 - (i mod 256)` of the value view
(R9, R10). -/
def cell (x : Wide) (i : Nat) : Bool := x.getLsbD (255 - i % 256)

/-- `hi128(X)`: limbs 0 and 1, the left 128 bits (R11). -/
def hi128 (x : Wide) : Half := x.extractLsb' 128 128

/-- `lo128(X)`: limbs 2 and 3, the right 128 bits (R11). -/
def lo128 (x : Wide) : Half := x.extractLsb' 0 128

/-- `A ‖ B`: `A` in the left 128 bits, `B` in the right (R11). -/
def joinHalves (a b : Half) : Wide := (a ++ b : BitVec (128 + 128))

end Sys2Proof.Machine
end

