-- ==== Sys2Proof/Machine/Flags.lean ====
section
/-! DEFINITION. The STATUS register: BUSY, the error codes, the valid bits and the word the host reads
(10_state.md R27 to R34, 60_exceptions.md R201). -/

namespace Sys2Proof.Machine

/-- `STATUS.BUSY`: 1 exactly when a command is in flight (R28). -/
def State.busy (s : State) : Bool := s.inflight.isSome

/-- The code of R201. -/
def ErrCode.code : ErrCode → BitVec 4
  | .ok => 0#4
  | .invalidLength => 1#4
  | .allocationFailure => 2#4
  | .noKey => 3#4
  | .illegalCmd => 4#4

/-- All four valid bits set: the operand's 256 bits were all supplied (R202). -/
def allValid : BitVec 4 := 0b1111#4

/-- The valid bits with bit `m` set (R32, R33). -/
def setValid (v : BitVec 4) (m : BitVec 2) : BitVec 4 := v ||| (1#4 <<< m.toNat)

/-- The word a read of STATUS returns (R27): ERR in 15:12, DIN_VALID in 11:8, KEY_VALID in 7:4, BUSYERR,
SK_VALID, DONE and BUSY in bits 3 to 0, zeros above. -/
def State.statusWord (s : State) : Word64 :=
  (0#48 ++ s.err.code ++ s.dinValid ++ s.keyValid ++ BitVec.ofBool s.busyErr ++ BitVec.ofBool s.skValid
    ++ BitVec.ofBool s.done ++ BitVec.ofBool s.busy : BitVec (48 + 4 + 4 + 4 + 1 + 1 + 1 + 1))

end Sys2Proof.Machine
end

