-- ==== Sys2Proof/Machine/Ops.lean ====
section
/-! DEFINITION. The named operations the meanings share: reading and writing the register space, raising
an error, accepting a command, finishing one, and reset. The block takes no trap (R211): raising an error
is all that stands in its place. -/

namespace Sys2Proof.Machine

/-- The value a register holds for a host read; CMD and the reserved indices read 0 (R26, R36, R171). -/
def State.readReg (s : State) : HostReg → Word64
  | .cmd => 0#64
  | .status => s.statusWord
  | .reserved => 0#64
  | .key m => s.key.limb m
  | .din m => s.din.limb m
  | .dout m => s.dout.limb m
  | .sk j m => (s.sk.subkey j).limb m

/-- `rdata` carries a specified value (R229). -/
def driveRead (v : Word64) (s : State) : State := { s with rdata := v }

/-- `rdata` carries an unspecified value, a fresh one each time (R224, R229; 93 I1, I4). -/
def driveFree (s : State) : State :=
  { s with rdata := Config.freeWord s.draws, draws := s.draws + 1 }

/-- A write lost because BUSY = 1: only BUSYERR is set (R31, R206). -/
def loseWrite (s : State) : State := { s with busyErr := true }

/-- What BUSY = 1 does to a write to CMD, KEY or DIN: it is lost; otherwise `effect` happens (R170). -/
def unlessBusy (effect : State → State) (s : State) : State :=
  if s.busy then loseWrite s else effect s

/-- KEYm takes the word and its valid bit is set (R22, R32). -/
def storeKey (m : BitVec 2) (d : Word64) (s : State) : State :=
  { s with key := s.key.setLimb m d, keyValid := setValid s.keyValid m }

/-- DINm takes the word and its valid bit is set (R23, R33). -/
def storeDin (m : BitVec 2) (d : Word64) (s : State) : State :=
  { s with din := s.din.setLimb m d, dinValid := setValid s.dinValid m }

/-- `raise E()`: ERR takes the code and DONE is set; nothing else changes (R172, R200). -/
def raiseError (e : ErrCode) (s : State) : State := { s with err := e, done := true }

/-- Acceptance clears the valid bits of the operand it consumes, and KEYSCHED's also SK_VALID (R172). -/
def consume (c : InFlight) (s : State) : State :=
  match c with
  | .evolve _ _ _ => { s with dinValid := 0#4 }
  | .keysched _ => { s with keyValid := 0#4, skValid := false }
  | .encrypt _ => { s with dinValid := 0#4 }
  | .decrypt _ => { s with dinValid := 0#4 }

/-- `Accept(op, operands)`: the command is in flight (so BUSY = 1), ERR and DONE are cleared (R172). -/
def accept (c : InFlight) (s : State) : State :=
  consume c { s with inflight := some c, err := .ok, done := false }

/-- The end of a completion step: BUSY is cleared and DONE set (R175). -/
def finish (s : State) : State := { s with inflight := none, done := true }

/-- A completion step that writes DOUT0..DOUT3, all four together (R24, R175). -/
def finishBlock (v : Reg) (s : State) : State := finish { s with dout := v }

/-- KEYSCHED's completion step: the sixteen SK words together, and SK_VALID (R25, R30, R175). -/
def finishKey (k : ScheduledKey) (s : State) : State := finish { s with sk := k, skValid := true }

/-- Every piece of state takes its reset value (R41, R220); the port's own fields stay. -/
def resetBlock (s : State) : State :=
  { State.reset with rdata := s.rdata, draws := s.draws, port := s.port }

end Sys2Proof.Machine
end

