-- ==== Sys2Proof/Machine/CaEngine.lean ====
section
/-! DEFINITION. The CA Rule Engine (40_ca_engine.md R100 to R107) and the EVOLVE command (R108). -/

namespace Sys2Proof.Machine

/-- The positions of `x` that hold the bit `b`. -/
def holding (b : Bool) (x : Wide) : Wide := if b then x else ~~~x

/-- The positions whose neighbourhood value is `n` (R101): left neighbour `n[2]`, centre `n[1]`, right
neighbour `n[0]`. `rotr256(X, 1)` brings each cell's left neighbour to it and `rotl256(X, 1)` its right
one (R103, R104). -/
def neighbourhood (n : Nat) (x : Wide) : Wide :=
  holding (n.testBit 2) (x.rotateRight 1) &&& holding (n.testBit 1) x
    &&& holding (n.testBit 0) (x.rotateLeft 1)

/-- The positions a rule table sets on account of the neighbourhood value `n` (R101, R105). -/
def ruleTerm (t : BitVec 8) (x : Wide) (n : Nat) : Wide :=
  if t.getLsbD n then neighbourhood n x else 0#256

/-- One generation (R101): every cell takes `T[n]` for its neighbourhood value `n`, all 256 from the same
register. Written for all positions at once in the value view (DEDUCED, notes/assumptions/8.md). -/
def generation (t : BitVec 8) (x : Wide) : Wide :=
  ruleTerm t x 0 ||| ruleTerm t x 1 ||| ruleTerm t x 2 ||| ruleTerm t x 3
    ||| ruleTerm t x 4 ||| ruleTerm t x 5 ||| ruleTerm t x 6 ||| ruleTerm t x 7

/-- `evolve(X, T, g)`: `g` generations, each of the result of the one before (R102). -/
def evolve (x : Wide) (t : BitVec 8) : Nat → Wide
  | 0 => x
  | g + 1 => evolve (generation t x) t g

/-- One CA256 pass: 255 generations of rule 30 (R106). -/
def ca256 (x : Wide) : Wide := evolve x Config.rule30 Config.caPassGens

/-- What EVOLVE's completion step computes from its record (R108). -/
def evolveResult (x : Reg) (rule : BitVec 8) (gen : BitVec 32) : Reg :=
  Reg.ofVal (evolve x.val rule gen.toNat)

/-- EVOLVE at the write of its word with BUSY = 0 (R108). -/
def commandEvolve (rule : BitVec 8) (gen : BitVec 32) (s : State) : State :=
  if s.dinValid = allValid then accept (.evolve s.din rule gen) s else raiseError .invalidLength s

/-- EVOLVE (R78, R108, R170). -/
def execEvolve (rule : BitVec 8) (gen : BitVec 32) (s : State) : Host.Outcome State Fault Refusal :=
  .next (unlessBusy (commandEvolve rule gen) s)

end Sys2Proof.Machine
end

