-- ==== Sys2Proof/Machine/Feistel.lean ====
section
/-! DEFINITION. The Feistel Core and the Cipher (42_feistel.md R140 to R150), ENCRYPT (R151) and DECRYPT
(R152). -/

namespace Sys2Proof.Machine

/-- The two working halves `L` and `R` of the block (R140). -/
structure Halves where
  left : Half
  right : Half
deriving DecidableEq, Repr

/-- The fold: the left 128 bits XOR the right 128 bits (R141). -/
def fold (w : Wide) : Half := hi128 w ^^^ lo128 w

/-- The round function `F(V, K)`: duplicate, XOR the subkey, one CA256 pass, fold (R141). -/
def roundFunction (v : Half) (k : Wide) : Half := fold (ca256 (joinHalves v v ^^^ k))

/-- An odd step: the left half is updated from the right (R142). -/
def stepLeft (k : Wide) (h : Halves) : Halves :=
  { h with left := h.left ^^^ roundFunction h.right k }

/-- An even step: the right half is updated from the left (R142). -/
def stepRight (k : Wide) (h : Halves) : Halves :=
  { h with right := h.right ^^^ roundFunction h.left k }

/-- One outer round of four steps with the subkeys in the order given (R142, R143). -/
def outerRound (a b c d : Wide) (h : Halves) : Halves :=
  stepRight d (stepLeft c (stepRight b (stepLeft a h)))

/-- `n` outer rounds with the same four subkeys (R143). -/
def outerRounds (a b c d : Wide) : Nat → Halves → Halves
  | 0, h => h
  | n + 1, h => outerRounds a b c d n (outerRound a b c d h)

/-- The block's halves (R140). -/
def splitBlock (b : Reg) : Halves := ⟨hi128 b.val, lo128 b.val⟩

/-- The output block `R ‖ L`: the halves exchanged (R145). -/
def outputBlock (h : Halves) : Reg := Reg.ofVal (joinHalves h.right h.left)

/-- `encrypt_block(SK, P)`: every round uses K1, K2, K3, K4 (R144, R146). -/
def encryptBlock (sk : ScheduledKey) (p : Reg) : Reg :=
  outputBlock (outerRounds sk.k1.val sk.k2.val sk.k3.val sk.k4.val Config.rounds (splitBlock p))

/-- `decrypt_block(SK, C)`: every round uses K4, K3, K2, K1 (R147, R148). -/
def decryptBlock (sk : ScheduledKey) (c : Reg) : Reg :=
  outputBlock (outerRounds sk.k4.val sk.k3.val sk.k2.val sk.k1.val Config.rounds (splitBlock c))

/-- A cipher command at the write of its word with BUSY = 0: the operand check comes before the key
check (R151, R152, R207). -/
def commandCipher (record : Reg → InFlight) (s : State) : State :=
  if s.dinValid = allValid then
    if s.skValid then accept (record s.din) s else raiseError .noKey s
  else raiseError .invalidLength s

/-- ENCRYPT at the write of its word with BUSY = 0 (R151). -/
def commandEncrypt (s : State) : State := commandCipher .encrypt s

/-- DECRYPT at the write of its word with BUSY = 0 (R152). -/
def commandDecrypt (s : State) : State := commandCipher .decrypt s

/-- ENCRYPT (R78, R151, R170). -/
def execEncrypt (s : State) : Host.Outcome State Fault Refusal := .next (unlessBusy commandEncrypt s)

/-- DECRYPT (R78, R152, R170). -/
def execDecrypt (s : State) : Host.Outcome State Fault Refusal := .next (unlessBusy commandDecrypt s)

end Sys2Proof.Machine
end

