-- ==== Sys2Proof/Machine/Housekeeping.lean ====
section
/-! DEFINITION. The two commands that finish within their own transaction: NOP (R173) and CLEAR (R174). -/

namespace Sys2Proof.Machine

/-- NOP at the write of its word with BUSY = 0: ERR and BUSYERR are cleared, DONE set (R173). -/
def commandNop (s : State) : State := { s with err := .ok, busyErr := false, done := true }

/-- CLEAR at the write of its word with BUSY = 0: reset values, then DONE (R41, R174). -/
def commandClear (s : State) : State := { resetBlock s with done := true }

/-- NOP (R78, R170, R173). -/
def execNop (s : State) : Host.Outcome State Fault Refusal := .next (unlessBusy commandNop s)

/-- CLEAR (R78, R170, R174). -/
def execClear (s : State) : Host.Outcome State Fault Refusal := .next (unlessBusy commandClear s)

end Sys2Proof.Machine
end

