-- ==== Sys2Proof/Machine/KeyScheduler.lean ====
section
/-! DEFINITION. The Key Scheduler (41_key_scheduler.md R120 to R124) and the KEYSCHED command (R125). -/

namespace Sys2Proof.Machine

/-- Limb `m` of the mixing vector for the subkey that stands at `j`, both counting from 0 (R121): the
key word itself at `m = j`, else `k[m] +64 (k[m] *64 k[j])`. -/
def mixingLimb (k : Reg) (j m : BitVec 2) : Word64 :=
  if m = j then k.limb m else k.limb m + k.limb m * k.limb j

/-- The mixing vector `M_(j+1)` (R121). -/
def mixingVector (k : Reg) (j : BitVec 2) : Reg :=
  ⟨mixingLimb k j 0#2, mixingLimb k j 1#2, mixingLimb k j 2#2, mixingLimb k j 3#2⟩

/-- The subkey `K_(j+1)`: one CA256 pass of its mixing vector (R122). -/
def deriveSubkey (k : Reg) (j : BitVec 2) : Reg := Reg.ofVal (ca256 (mixingVector k j).val)

/-- `derive(k)` (R120, R123). No key is checked or treated apart (R5, R124). -/
def derive (k : Reg) : ScheduledKey :=
  ⟨deriveSubkey k 0#2, deriveSubkey k 1#2, deriveSubkey k 2#2, deriveSubkey k 3#2⟩

/-- KEYSCHED at the write of its word with BUSY = 0 (R125). -/
def commandKeysched (s : State) : State :=
  if s.keyValid = allValid then accept (.keysched s.key) s else raiseError .invalidLength s

/-- KEYSCHED (R78, R125, R170). -/
def execKeysched (s : State) : Host.Outcome State Fault Refusal :=
  .next (unlessBusy commandKeysched s)

end Sys2Proof.Machine
end

