-- ==== Sys2Proof/Machine/HostTransactions.lean ====
section
/-! DEFINITION. The host transactions HREAD (R171) and HWRITE (R170), and the dispatch of a command word
written to CMD (R172). -/

namespace Sys2Proof.Machine

/-- A legal command with BUSY = 0 (R172). -/
def runCommand (c : Command) (s : State) : State :=
  match c with
  | .nop => commandNop s
  | .evolve rule gen => commandEvolve rule gen s
  | .keysched => commandKeysched s
  | .encrypt => commandEncrypt s
  | .decrypt => commandDecrypt s
  | .clear => commandClear s

/-- `Command(w)`: a word that is not legal raises ILLEGAL_CMD, a legal one runs (R172, R205). -/
def commandWord (w : Word64) (s : State) : State :=
  match decodeCommand w with
  | .ok c => runCommand c s
  | .error _ => raiseError .illegalCmd s

/-- `HostWrite(i, d)` by the register the index names (R170). -/
def writeReg (r : HostReg) (d : Word64) (s : State) : State :=
  match r with
  | .cmd => unlessBusy (commandWord d) s
  | .key m => unlessBusy (storeKey m d) s
  | .din m => unlessBusy (storeDin m d) s
  | .status => s
  | .reserved => s
  | .dout _ => s
  | .sk _ _ => s

/-- HREAD: `rdata` takes the register's value, or an unspecified one for DOUT and SK while BUSY = 1
(R171). -/
def execHread (i : WordIndex) (s : State) : Host.Outcome State Fault Refusal :=
  .next (if s.busy && (hostReg i).isResult then driveFree s else driveRead (s.readReg (hostReg i)) s)

/-- HWRITE (R170). -/
def execHwrite (i : WordIndex) (d : Word64) (s : State) : Host.Outcome State Fault Refusal :=
  .next (writeReg (hostReg i) d s)

end Sys2Proof.Machine
end

