-- ==== Sys2Proof/Machine/Dispatch.lean ====
section
/-! DEFINITION. One arm per instruction, each one call of its meaning. -/

namespace Sys2Proof.Machine

def exec (i : Instr) (s : State) : Host.Outcome State Fault Refusal :=
  match i with
  | .hread r => Sys2Proof.Machine.execHread r s
  | .hwrite r d => Sys2Proof.Machine.execHwrite r d s
  | .nop => Sys2Proof.Machine.execNop s
  | .evolve rule gen => Sys2Proof.Machine.execEvolve rule gen s
  | .keysched => Sys2Proof.Machine.execKeysched s
  | .encrypt => Sys2Proof.Machine.execEncrypt s
  | .decrypt => Sys2Proof.Machine.execDecrypt s
  | .clear => Sys2Proof.Machine.execClear s

end Sys2Proof.Machine
end

