-- ==== Sys2Proof/Machine/Engine.lean ====
section
/-! DEFINITION. The engine's completion step (43_host_control.md R175) and the latency of a command
(R227). -/

namespace Sys2Proof.Machine

/-- The completion step of the command in flight, one atomic event, computed from the in-flight record
and for the cipher commands from the SK file (R37, R61, R175). It is enabled only while BUSY = 1. -/
def completionStep (s : State) : State :=
  match s.inflight with
  | none => s
  | some (.evolve x rule gen) => finishBlock (evolveResult x rule gen) s
  | some (.keysched k) => finishKey (derive k) s
  | some (.encrypt p) => finishBlock (encryptBlock s.sk p) s
  | some (.decrypt c) => finishBlock (decryptBlock s.sk c) s

/-- Clock cycles from acceptance to completion: the command decides, and for EVOLVE its generation
count, never an operand value (R227). -/
def latency : InFlight → Nat
  | .evolve _ _ gen => Config.latEvolve gen
  | .keysched _ => Config.latKeysched
  | .encrypt _ => Config.latCrypt
  | .decrypt _ => Config.latCrypt

end Sys2Proof.Machine
end

