-- ==== Sys2Proof/Machine/Port.lean ====
section
/-! DEFINITION. The host port at a clock edge (20_memory.md R51, R60, R64; 70_reset_and_hazards.md R229):
what is sampled, which instruction the sampled transaction is, and the engine's turn after it. -/

namespace Sys2Proof.Machine

/-- The header of a presented transaction: `WE` above `WIDX` (R71). -/
def Transaction.header (t : Transaction) : Header := BitVec.ofBool t.we ++ t.widx

/-- The instruction a presented transaction is (R71, R78). -/
def Transaction.instr (t : Transaction) : Instr := decodePort t.header t.wdata

/-- How the port carries an encoded form: a command word is the data of an HWRITE to CMD (R70). -/
def presented : Form → Transaction
  | .ht h d => ⟨h.getLsbD 5, h.extractLsb' 0 5, d⟩
  | .cw w => ⟨true, 0#5, w⟩

/-- An edge with no reset and no transaction at which a command in flight completes: what follows once
nothing more is scheduled (DESIGN CHOICE, notes/assumptions/1.md). -/
def restEdge : ClockEdge := ⟨false, none, true⟩

/-- What the port and the engine do at the coming edge. -/
def State.edge (s : State) : ClockEdge := s.port.headD restEdge

/-- The edge is taken from the schedule, and `rdata` is unspecified unless an HREAD drives it (R229). -/
def sampleEdge (s : State) : State := driveFree { s with port := s.port.tail }

/-- The instruction presented at the coming edge; none when `req = 0`. -/
def State.fetch (s : State) : Option Instr := s.edge.txn.map Transaction.instr

/-- The engine's turn at the edge whose state before it is `s`, after the transaction left `t`: only a
command already in flight before the edge can complete at it (R64, R175, R227; DEDUCED,
notes/assumptions/11.md). -/
def engineTurn (s t : State) : State :=
  if s.edge.completes && s.busy then completionStep t else t

/-- The schedule with one more edge before it, presenting the form alone: no reset, no completion. -/
def presentForm (f : Form) (s : State) : State :=
  { s with port := ⟨false, some (presented f), false⟩ :: s.port }

end Sys2Proof.Machine
end

