-- ==== Sys2Proof/Machine/Step.lean ====
section
/-! DEFINITION. One step of the machine is one rising edge of `clk` (20_memory.md R60, R64). -/

namespace Sys2Proof.Machine

/-- One rising edge: with `rst = 1` reset alone, the transaction discarded (R64, R220); otherwise the
transaction, if any, and then the engine's completion step, if it occurs at this edge (R64). -/
def step (s : State) : Host.Outcome State Fault Refusal :=
  if s.edge.rst then .next (resetBlock (sampleEdge s))
  else
    match s.fetch with
    | none => .next (engineTurn s (sampleEdge s))
    | some i =>
      match exec i (sampleEdge s) with
      | .next t => .next (engineTurn s t)
      | .fault f => .fault f
      | .refused r => .refused r

/-- `s` with the instruction of the table word presented at the next edge, before what was scheduled;
a word that is no encoded form changes nothing (notes/assumptions/4.md, notes/assumptions/7.md). -/
def State.withFetchWord (s : State) (nbits w : Nat) : State :=
  match formOfTableWord nbits w with
  | none => s
  | some f => presentForm f s

end Sys2Proof.Machine
end

