-- ==== Sys2Proof/Machine/Assembler.lean ====
section
/-! DEFINITION. The host-program syntax of R78 and R79: register names as word indices, and the
transactions each pseudo-instruction expands to. Loops, bindings and assertions are the host's own. -/

namespace Sys2Proof.Machine

/-- The word index a register name stands for (R35, R78); `reserved` is written as 0x02. -/
def HostReg.index : HostReg → WordIndex
  | .cmd => 0x00#5
  | .status => 0x01#5
  | .reserved => 0x02#5
  | .key m => 1#3 ++ m
  | .din m => 2#3 ++ m
  | .dout m => 3#3 ++ m
  | .sk j m => 1#1 ++ j ++ m

/-- `HWRITE <reg>, <imm64>` (R78). -/
def asmWrite (r : HostReg) (d : Word64) : Transaction := ⟨true, r.index, d⟩

/-- `HREAD <name> = <reg>` (R78). -/
def asmRead (r : HostReg) : Transaction := ⟨false, r.index, 0#64⟩

/-- `NOP`, `EVOLVE`, `KEYSCHED`, `ENCRYPT`, `DECRYPT`, `CLEAR` as the write of their word (R78). -/
def asmCommand (c : Command) : Transaction := asmWrite .cmd (encodeCommand c)

/-- `WAIT` as `n` polls of STATUS; the host repeats them until BUSY reads 0 (R79; DESIGN CHOICE,
notes/assumptions/12.md). -/
def asmWait (n : Nat) : List Transaction := List.replicate n (asmRead .status)

/-- `LDKEY a, b, c, d` (R79). -/
def asmLoadKey (x : Reg) : List Transaction :=
  [asmWrite (.key 0#2) x.l0, asmWrite (.key 1#2) x.l1, asmWrite (.key 2#2) x.l2, asmWrite (.key 3#2) x.l3]

/-- `LDIN a, b, c, d` (R79). -/
def asmLoadIn (x : Reg) : List Transaction :=
  [asmWrite (.din 0#2) x.l0, asmWrite (.din 1#2) x.l1, asmWrite (.din 2#2) x.l2, asmWrite (.din 3#2) x.l3]

/-- `RDOUT r` (R79). -/
def asmReadOut : List Transaction :=
  [asmRead (.dout 0#2), asmRead (.dout 1#2), asmRead (.dout 2#2), asmRead (.dout 3#2)]

/-- `RDSK j, r` (R79), `j` counting from 0. -/
def asmReadSubkey (j : BitVec 2) : List Transaction :=
  [asmRead (.sk j 0#2), asmRead (.sk j 1#2), asmRead (.sk j 2#2), asmRead (.sk j 3#2)]

/-- `CHECK e`: its only transaction is a read of STATUS; the host compares bits 15:12 (R79). -/
def asmCheck : List Transaction := [asmRead .status]

/-- A host program as the clock edges that carry it, one transaction an edge, no command completing
while it runs. -/
def scheduleOf (p : List Transaction) : List ClockEdge := p.map fun t => ⟨false, some t, false⟩

end Sys2Proof.Machine
end

