-- ==== Sys2Proof/Safety.lean ====
section
/-! DEFINITION. What counts as a safe use and a sound state of the block: quiescence (R176), the host's
obligations (R177), the schedules that keep a latency (R227), and the invariants of the state. -/

namespace Sys2Proof.Safety

open Sys2Proof.Machine

/-- The block is quiescent: BUSY = 0 (R176). -/
def quiescent (s : State) : Bool := !s.busy

/-- The transaction neither loses a write (R223) nor reads an unspecified word (R224): what the host must
wait for (R177). -/
def hostMay (s : State) : Instr → Bool
  | .hread i => !(s.busy && (hostReg i).isResult)
  | .hwrite i _ => !(s.busy && (hostReg i).isGuarded)
  | .nop => !s.busy
  | .evolve _ _ => !s.busy
  | .keysched => !s.busy
  | .encrypt => !s.busy
  | .decrypt => !s.busy
  | .clear => !s.busy

/-- The first completion of the schedule is at its `n`-th edge, and no reset comes before it: the
schedule that gives a command just accepted the latency `n` (R227). -/
def completesAfter : Nat → List ClockEdge → Bool
  | 0, _ => false
  | 1, p => !(p.headD restEdge).rst && (p.headD restEdge).completes
  | n + 2, p => !(p.headD restEdge).rst && !(p.headD restEdge).completes && completesAfter (n + 1) p.tail

/-- The schedule keeps the open latency parameter of the command just accepted (R227). -/
def keepsLatency (c : InFlight) (p : List ClockEdge) : Bool := completesAfter (latency c) p

/-- While a command is in flight DONE and ERR are 0; an error is reported with DONE = 1; code 2 is never
reported (R28, R29, R34, R203). -/
structure StatusInv (s : State) : Prop where
  busy_pending : s.busy = true → s.done = false ∧ s.err = .ok
  error_done : s.err ≠ .ok → s.done = true
  no_allocation_failure : s.err ≠ .allocationFailure

/-- The operand copy of a command in flight is what its registers hold, and its valid bits are consumed
(R32, R33, R37). -/
def OperandInv (s : State) : Prop :=
  match s.inflight with
  | none => True
  | some (.evolve x _ _) => x = s.din ∧ s.dinValid = 0#4
  | some (.keysched k) => k = s.key ∧ s.keyValid = 0#4
  | some (.encrypt p) => p = s.din ∧ s.dinValid = 0#4
  | some (.decrypt c) => c = s.din ∧ s.dinValid = 0#4

/-- The command in flight is KEYSCHED. -/
def schedulingKey (s : State) : Bool :=
  match s.inflight with
  | none => false
  | some (.evolve _ _ _) => false
  | some (.keysched _) => true
  | some (.encrypt _) => false
  | some (.decrypt _) => false

/-- The command in flight is ENCRYPT or DECRYPT. -/
def ciphering (s : State) : Bool :=
  match s.inflight with
  | none => false
  | some (.evolve _ _ _) => false
  | some (.keysched _) => false
  | some (.encrypt _) => true
  | some (.decrypt _) => true

/-- SK_VALID = 1 says that the SK file holds the ScheduledKey of some key; with SK_VALID = 0 it is zero
unless it is being replaced; a cipher command runs only with SK_VALID = 1 (R30, R40, R41, R204). -/
structure KeyInv (s : State) : Prop where
  valid_derived : s.skValid = true → ∃ k, s.sk = derive k
  invalid_zero : s.skValid = false → schedulingKey s = true ∨ s.sk = ScheduledKey.zero
  replacing_invalid : schedulingKey s = true → s.skValid = false
  cipher_valid : ciphering s = true → s.skValid = true

/-- A quiescent block with DONE = 0 has run no command since reset: no error, no lost write, no result
(R29, R41, R221). -/
def FreshInv (s : State) : Prop :=
  s.busy = false → s.done = false →
    s.err = .ok ∧ s.busyErr = false ∧ s.skValid = false ∧ s.dout = Reg.zero ∧ s.sk = ScheduledKey.zero

/-- A record with its operand blanked. -/
def withoutOperand : InFlight → InFlight
  | .evolve _ rule gen => .evolve Reg.zero rule gen
  | .keysched _ => .keysched Reg.zero
  | .encrypt _ => .encrypt Reg.zero
  | .decrypt _ => .decrypt Reg.zero

/-- The state with everything that carries key, block or result data blanked: what is left is STATUS,
which command is in flight, and the port's schedule. -/
def controlView (s : State) : State :=
  { s with
    key := Reg.zero, din := Reg.zero, dout := Reg.zero, sk := ScheduledKey.zero, rdata := 0#64,
    inflight := s.inflight.map withoutOperand }

end Sys2Proof.Safety
end

