-- ==== Sys2Proof/Certificates/Slice0/Obligations.lean ====
section
/-! DEFINITION. The statements for the provers. -/

open Sys2Proof Sys2Proof.Machine Sys2Proof.Safety

/-! ## Encoding -/

/-- The encoding examples of 30_encoding.md section 6: headers and words written out bit for bit decode
to the instruction they stand for. -/
def Obligations.WrittenEncodingsDecode : Prop :=
  decode (.ht 0b100100#6 0xa59535d07e192f12#64) = .ok (.hwrite 0x04#5 0xa59535d07e192f12#64) ∧
  decode (.ht 0b000001#6 0#64) = .ok (.hread 0x01#5) ∧
  decode (.ht 0b011111#6 0#64) = .ok (.hread 0x1F#5) ∧
  decode (.cw 0x0000000000000000#64) = .ok .nop ∧
  decode (.cw 0x0000000000011E01#64) = .ok (.evolve 0x1E#8 1#32) ∧
  decode (.cw 0x0000FFFFFFFFFF01#64) = .ok (.evolve 0xFF#8 0xFFFFFFFF#32) ∧
  decode (.cw 0x0000000000000002#64) = .ok .keysched ∧
  decode (.cw 0x0000000000000003#64) = .ok .encrypt ∧
  decode (.cw 0x0000000000000004#64) = .ok .decrypt ∧
  decode (.cw 0x0000000000000005#64) = .ok .clear ∧
  decode (.cw 0x0000000000000006#64) = .error .reservedOpcode ∧
  decode (.cw 0x0000000000000102#64) = .error .nonzeroField ∧
  decode (.cw 0x0001000000011E01#64) = .error .nonzeroRsv1 ∧
  decode (.cw 0x0000000000011E11#64) = .error .nonzeroRsv0

/-- Decode and encode agree on every instruction, with every operand (R71, R72, R73, R74). -/
def Obligations.DecodeOfEncodeIsTheInstruction : Prop :=
  ∀ i : Instr, decode (encode i) = .ok i

/-- R75: the decoder accepts exactly the legal words, as the formula of R75 and as its match and mask
pairs, and no two of those patterns overlap. -/
def Obligations.DecoderAcceptsExactlyLegalWords : Prop :=
  (∀ w : Word64,
    ((∃ c, decodeCommand w = .ok c) ↔
      ((w.extractLsb' 0 4 = 0x1#4 ∧ w.extractLsb' 4 4 = 0#4 ∧ w.extractLsb' 48 16 = 0#16) ∨
        (w.extractLsb' 0 4 ∈ [0x0#4, 0x2#4, 0x3#4, 0x4#4, 0x5#4] ∧ w.extractLsb' 4 60 = 0#60))) ∧
    ((∃ c, decodeCommand w = .ok c) ↔ legalWord w = true)) ∧
  commandRows.Pairwise fun a b => ∀ w : Word64, ¬ (w &&& a.mask = a.pattern ∧ w &&& b.mask = b.pattern)

/-- A legal command word is the encoding of the command it decodes to: each command has one word
(R72, R74). -/
def Obligations.EachCommandHasOneWord : Prop :=
  ∀ (w : Word64) (c : Command), decodeCommand w = .ok c → encodeCommand c = w

/-- The port carries every well-formed instruction unchanged (R70, R71, R78), and what it carries is always
read as a well-formed instruction. Which terms are well formed is the model's own choice: the raw write of a
legal word to CMD is ill formed and the port reads it as the command (notes/assumptions/7.md). -/
def Obligations.PortCarriesWellFormedInstructions : Prop :=
  (∀ i f, i.wellFormed = true → f = encode i → (presented f).instr = i) ∧
  (∀ t : Transaction, t.instr.wellFormed = true)

/-- A command is the write of its word to CMD (R78): both have the same effect in every state. -/
def Obligations.CommandIsTheWriteOfItsWord : Prop :=
  ∀ (c : Command) (s : State), exec (.hwrite 0x00#5 (encodeCommand c)) s = exec c.toInstr s

/-! ## The register space -/

/-- HREAD answers on `rdata` the value the register holds: 0 for CMD and the reserved indices, the STATUS
word, the stored KEY and DIN words always, the stored DOUT and SK words while BUSY = 0; nothing else
changes (R171). -/
def Obligations.HreadReturnsTheRegister : Prop :=
  ∀ (s : State) (j m : BitVec 2),
    exec (.hread 0x00#5) s = .next { s with rdata := 0#64 } ∧
    exec (.hread 0x02#5) s = .next { s with rdata := 0#64 } ∧
    exec (.hread 0x03#5) s = .next { s with rdata := 0#64 } ∧
    exec (.hread 0x01#5) s = .next { s with rdata := s.statusWord } ∧
    exec (.hread (0x04#5 + m.setWidth 5)) s = .next { s with rdata := s.key.limb m } ∧
    exec (.hread (0x08#5 + m.setWidth 5)) s = .next { s with rdata := s.din.limb m } ∧
    (s.busy = false →
      exec (.hread (0x0C#5 + m.setWidth 5)) s = .next { s with rdata := s.dout.limb m } ∧
      exec (.hread (0x10#5 + 4#5 * j.setWidth 5 + m.setWidth 5)) s = .next { s with rdata := (s.sk.subkey j).limb m })

/-- HREAD of a DOUT or SK word while BUSY = 1 answers a fresh unspecified value, whatever the word holds
(R24, R25, R224; the form of the free value is the model's own, notes/assumptions/2.md). -/
def Obligations.BusyReadOfAResultIsUnspecified : Prop :=
  ∀ (s : State) (j m : BitVec 2), s.busy = true →
    exec (.hread (0x0C#5 + m.setWidth 5)) s =
      .next { s with rdata := Config.freeWord s.draws, draws := s.draws + 1 } ∧
    exec (.hread (0x10#5 + 4#5 * j.setWidth 5 + m.setWidth 5)) s =
      .next { s with rdata := Config.freeWord s.draws, draws := s.draws + 1 }

/-- R57: no HREAD changes any state of the block (only the port's `rdata`, and the model's own count of
unspecified values, differ), and a second read of the same word returns the same value, but for DOUT and
SK while BUSY = 1. -/
def Obligations.HreadHasNoSideEffect : Prop :=
  ∀ (i : WordIndex) (s : State), ∃ t, exec (.hread i) s = .next t ∧
    { t with rdata := s.rdata, draws := s.draws } = s ∧
    (¬ (s.busy = true ∧ 0x0C#5 ≤ i) → exec (.hread i) t = .next t)

/-- The STATUS word of R27 holds each field at its place, and zeros in the reserved bits. -/
def Obligations.StatusWordHoldsEachField : Prop :=
  ∀ s : State,
    s.statusWord.getLsbD 0 = s.inflight.isSome ∧ s.statusWord.getLsbD 1 = s.done ∧
    s.statusWord.getLsbD 2 = s.skValid ∧ s.statusWord.getLsbD 3 = s.busyErr ∧
    s.statusWord.extractLsb' 4 4 = s.keyValid ∧ s.statusWord.extractLsb' 8 4 = s.dinValid ∧
    s.statusWord.extractLsb' 12 4 = s.err.code ∧ s.statusWord.extractLsb' 16 48 = 0#48

/-- While BUSY = 0, HWRITE to KEYm or DINm stores the word in that register, sets its valid bit, and
changes nothing else (R22, R23, R32, R33, R170). -/
def Obligations.HwriteStoresKeyAndDinWords : Prop :=
  ∀ (s : State) (m : BitVec 2) (d : Word64), s.busy = false →
    exec (.hwrite (0x04#5 + m.setWidth 5) d) s =
      .next { s with key := s.key.setLimb m d, keyValid := s.keyValid ||| (1#4 <<< m.toNat) } ∧
    exec (.hwrite (0x08#5 + m.setWidth 5) d) s =
      .next { s with din := s.din.setLimb m d, dinValid := s.dinValid ||| (1#4 <<< m.toNat) }

/-- A word written to KEY or DIN while BUSY = 0 reads back, its valid bit reads 1, and every other word
and valid bit of that operand is as before (R22, R23, R32, R33). -/
def Obligations.WrittenOperandWordsReadBack : Prop :=
  ∀ (s : State) (m : BitVec 2) (d : Word64), s.busy = false →
    (∃ t, exec (.hwrite (0x04#5 + m.setWidth 5) d) s = .next t ∧
      exec (.hread (0x04#5 + m.setWidth 5)) t = .next { t with rdata := d } ∧
      t.keyValid.getLsbD m.toNat = true ∧
      ∀ n, n ≠ m → t.key.limb n = s.key.limb n ∧
        t.keyValid.getLsbD n.toNat = s.keyValid.getLsbD n.toNat) ∧
    (∃ t, exec (.hwrite (0x08#5 + m.setWidth 5) d) s = .next t ∧
      exec (.hread (0x08#5 + m.setWidth 5)) t = .next { t with rdata := d } ∧
      t.dinValid.getLsbD m.toNat = true ∧
      ∀ n, n ≠ m → t.din.limb n = s.din.limb n ∧
        t.dinValid.getLsbD n.toNat = s.dinValid.getLsbD n.toNat)

/-- R206: a write to CMD, KEY or DIN while BUSY = 1, and so every command, is ignored and sets BUSYERR;
ERR, DONE, the command in flight and all else stay. -/
def Obligations.BusyWriteOnlySetsBusyErr : Prop :=
  ∀ s : State, s.busy = true →
    (∀ (i : WordIndex) (d : Word64), i = 0x00#5 ∨ (0x04#5 ≤ i ∧ i ≤ 0x0B#5) →
      exec (.hwrite i d) s = .next { s with busyErr := true }) ∧
    (∀ c : Command, exec c.toInstr s = .next { s with busyErr := true })

/-- A write to STATUS, a reserved index, DOUT or SK changes nothing, whatever BUSY is (R58, R170). -/
def Obligations.WritesToReadOnlyIndicesAreDropped : Prop :=
  ∀ (s : State) (i : WordIndex) (d : Word64),
    (0x01#5 ≤ i ∧ i ≤ 0x03#5) ∨ 0x0C#5 ≤ i → exec (.hwrite i d) s = .next s

/-- R36: the reserved indices read 0 and ignore writes, setting no flag, whatever BUSY is. -/
def Obligations.ReservedIndicesReadZeroAndIgnoreWrites : Prop :=
  ∀ (s : State) (i : WordIndex) (d : Word64), i = 0x02#5 ∨ i = 0x03#5 →
    exec (.hread i) s = .next { s with rdata := 0#64 } ∧ exec (.hwrite i d) s = .next s

/-! ## Commands: execution, acceptance, rejection -/

/-- R173: NOP is the word 0 exactly and clears ERR and BUSYERR, sets DONE and changes nothing else; any
other word with OP = 0 raises ILLEGAL_CMD; while BUSY = 1 a NOP is ignored and itself sets BUSYERR. -/
def Obligations.NopAcknowledgesErrors : Prop :=
  (∀ s : State, s.busy = false → exec .nop s = .next { s with err := .ok, busyErr := false, done := true }) ∧
  (∀ s : State, s.busy = true → exec .nop s = .next { s with busyErr := true }) ∧
  encode .nop = .cw 0x0000000000000000#64 ∧
  (∀ (w : Word64) (s : State), w.extractLsb' 0 4 = 0#4 → w ≠ 0#64 → s.busy = false →
    exec (.hwrite 0x00#5 w) s = .next { s with err := .illegalCmd, done := true })

/-- R174: CLEAR gives every piece of state its reset value and then sets DONE; while BUSY = 1 it is
ignored, sets BUSYERR and cannot cancel the command in flight; afterwards a cipher command with a fresh
block is rejected for want of a key. The port's own fields are not state of the block. -/
def Obligations.ClearTakesResetValues : Prop :=
  encode .clear = .cw 0x0000000000000005#64 ∧
  (∀ s : State, s.busy = false → ∃ t, exec .clear s = .next t ∧
    t = { State.reset with done := true, rdata := s.rdata, draws := s.draws, port := s.port } ∧
    t.statusWord = 0x0000000000000002#64 ∧
    (∀ i, i = Instr.encrypt ∨ i = Instr.decrypt → exec i { t with dinValid := 0b1111#4 } =
      .next { t with dinValid := 0b1111#4, err := .noKey })) ∧
  (∀ s : State, s.busy = true → exec .clear s = .next { s with busyErr := true })

/-- EVOLVE with BUSY = 0 and all four DIN words valid is accepted with its rule, its count and a copy of
DIN: ERR and DONE cleared, BUSY set, DIN_VALID consumed, nothing else changed (R108, R172). -/
def Obligations.EvolveIsAccepted : Prop :=
  ∀ (s : State) (rule : BitVec 8) (gen : BitVec 32), s.busy = false → s.dinValid = 0b1111#4 →
    exec (.evolve rule gen) s =
      .next { s with
        inflight := some (.evolve s.din rule gen), err := .ok, done := false, dinValid := 0b0000#4 }

/-- KEYSCHED with BUSY = 0 and all four KEY words valid is accepted with a copy of KEY: ERR, DONE,
KEY_VALID and SK_VALID cleared, BUSY set, nothing else changed (R125, R172). -/
def Obligations.KeyschedIsAccepted : Prop :=
  ∀ s : State, s.busy = false → s.keyValid = 0b1111#4 →
    exec .keysched s =
      .next { s with
        inflight := some (.keysched s.key), err := .ok, done := false, keyValid := 0b0000#4, skValid := false }

/-- ENCRYPT and DECRYPT with BUSY = 0, all four DIN words valid and SK_VALID = 1 are accepted with a copy
of DIN: ERR, DONE and DIN_VALID cleared, BUSY set, nothing else changed (R151, R152, R172). -/
def Obligations.CipherCommandsAreAccepted : Prop :=
  ∀ s : State, s.busy = false → s.dinValid = 0b1111#4 → s.skValid = true →
    exec .encrypt s =
      .next { s with inflight := some (.encrypt s.din), err := .ok, done := false, dinValid := 0b0000#4 } ∧
    exec .decrypt s =
      .next { s with inflight := some (.decrypt s.din), err := .ok, done := false, dinValid := 0b0000#4 }

/-- R202: a legal KEYSCHED without four valid KEY words, and a legal EVOLVE, ENCRYPT or DECRYPT without
four valid DIN words, raise INVALID_LENGTH, code 1, and change nothing but ERR and DONE. -/
def Obligations.MissingOperandWordsRaiseInvalidLength : Prop :=
  ErrCode.invalidLength.code = 1#4 ∧
  ∀ s : State, s.busy = false →
    (s.keyValid ≠ 0b1111#4 → exec .keysched s = .next { s with err := .invalidLength, done := true }) ∧
    (s.dinValid ≠ 0b1111#4 →
      (∀ rule gen, exec (.evolve rule gen) s = .next { s with err := .invalidLength, done := true }) ∧
      exec .encrypt s = .next { s with err := .invalidLength, done := true } ∧
      exec .decrypt s = .next { s with err := .invalidLength, done := true })

/-- R204: a legal ENCRYPT or DECRYPT with all DIN words valid and SK_VALID = 0 raises NO_KEY, code 3. -/
def Obligations.CipherWithoutScheduledKeyRaisesNoKey : Prop :=
  ErrCode.noKey.code = 3#4 ∧
  ∀ s : State, s.busy = false → s.dinValid = 0b1111#4 → s.skValid = false →
    exec .encrypt s = .next { s with err := .noKey, done := true } ∧
    exec .decrypt s = .next { s with err := .noKey, done := true }

/-- R205: every command word that is not legal (opcode 0x6 to 0xF, a reserved field not 0, or RULE or GEN
not 0 with an opcode other than EVOLVE) raises ILLEGAL_CMD, code 4, when written with BUSY = 0. -/
def Obligations.IllegalWordsRaiseIllegalCmd : Prop :=
  ErrCode.illegalCmd.code = 4#4 ∧
  ∀ (w : Word64) (s : State), s.busy = false →
    (0x6#4 ≤ w.extractLsb' 0 4 ∨ w.extractLsb' 4 4 ≠ 0#4 ∨ w.extractLsb' 48 16 ≠ 0#16 ∨
      (w.extractLsb' 0 4 ≠ 0x1#4 ∧ w.extractLsb' 8 40 ≠ 0#40)) →
    exec (.hwrite 0x00#5 w) s = .next { s with err := .illegalCmd, done := true }

/-- What a command leaves when no error applies to it: NOP and CLEAR finished (R173, R174), or the command
in flight with the copy of its operand, whose valid bits are consumed (R172). -/
def Sys2Proof.commandEffect (c : Command) (s : State) : State :=
  match c with
  | .nop => { s with err := .ok, busyErr := false, done := true }
  | .evolve rule gen =>
    { s with inflight := some (.evolve s.din rule gen), err := .ok, done := false, dinValid := 0b0000#4 }
  | .keysched =>
    { s with
      inflight := some (.keysched s.key), err := .ok, done := false, keyValid := 0b0000#4, skValid := false }
  | .encrypt => { s with inflight := some (.encrypt s.din), err := .ok, done := false, dinValid := 0b0000#4 }
  | .decrypt => { s with inflight := some (.decrypt s.din), err := .ok, done := false, dinValid := 0b0000#4 }
  | .clear => { State.reset with done := true, rdata := s.rdata, draws := s.draws, port := s.port }

/-- The error, if any, that a legal command raises while BUSY = 0: a missing operand word before a missing
ScheduledKey (R202, R204, R207). -/
def Sys2Proof.commandError (c : Command) (s : State) : Option ErrCode :=
  match c with
  | .nop => none
  | .evolve _ _ => if s.dinValid = 0b1111#4 then none else some .invalidLength
  | .keysched => if s.keyValid = 0b1111#4 then none else some .invalidLength
  | .encrypt => if s.dinValid = 0b1111#4 then (if s.skValid then none else some .noKey) else some .invalidLength
  | .decrypt => if s.dinValid = 0b1111#4 then (if s.skValid then none else some .noKey) else some .invalidLength
  | .clear => none

/-- The order of R207 in one formula: what a word written to CMD does, in every state: ignored while
BUSY = 1, else ILLEGAL_CMD, else INVALID_LENGTH, else NO_KEY, else the command whose word it is takes its
whole effect: NOP and CLEAR are finished, any other is accepted (R172, R173, R174). -/
def Obligations.OneErrorIsReportedInPriorityOrder : Prop :=
  ∀ (w : Word64) (s : State), ∃ t, exec (.hwrite 0x00#5 w) s = .next t ∧
    (if s.busy = true then t = { s with busyErr := true }
    else if legalWord w = false then t = { s with err := .illegalCmd, done := true }
    else if w.extractLsb' 0 4 = 0x2#4 ∧ s.keyValid ≠ 0b1111#4 then
      t = { s with err := .invalidLength, done := true }
    else if w.extractLsb' 0 4 ∈ [0x1#4, 0x3#4, 0x4#4] ∧ s.dinValid ≠ 0b1111#4 then
      t = { s with err := .invalidLength, done := true }
    else if w.extractLsb' 0 4 ∈ [0x3#4, 0x4#4] ∧ s.skValid = false then
      t = { s with err := .noKey, done := true }
    else ∃ c, decodeCommand w = .ok c ∧ encodeCommand c = w ∧ exec c.toInstr s = .next t ∧
      t = commandEffect c s)

/-- R200: an error is raised only by a word written to CMD with BUSY = 0, and raising it changes ERR and
DONE and nothing else. -/
def Obligations.RaisingAnErrorChangesOnlyErrAndDone : Prop :=
  (∀ (w : Word64) (s t : State), s.busy = false → exec (.hwrite 0x00#5 w) s = .next t → t.err ≠ .ok →
    t = { s with err := t.err, done := true }) ∧
  (∀ (i : Instr) (s t : State), exec i s = .next t → t.err ≠ .ok → t.err ≠ s.err →
    s.busy = false ∧ (∀ r, i ≠ .hread r) ∧ (∀ r d, i = .hwrite r d → r = 0x00#5) ∧
      t = { s with err := t.err, done := true })

/-- R225: acceptance consumes the valid bits of the operand, the register values stay, and after completion
the same command is rejected with INVALID_LENGTH until the operand's words are written anew. -/
def Obligations.ConsumedOperandsMustBeWrittenAgain : Prop :=
  ∀ (s t : State) (i : Instr), s.busy = false → exec i s = .next t → t.busy = true →
    ((∃ k, t.inflight = some (.keysched k)) → t.keyValid = 0b0000#4 ∧ t.dinValid = s.dinValid) ∧
    ((¬ ∃ k, t.inflight = some (.keysched k)) → t.dinValid = 0b0000#4 ∧ t.keyValid = s.keyValid) ∧
    (completionStep t).key = s.key ∧ (completionStep t).din = s.din ∧
    exec i (completionStep t) = .next { completionStep t with err := .invalidLength, done := true }

/-! ## The CA Rule Engine -/

/-- R101: each cell of the next generation is the rule table at 4·left + 2·centre + right, positions
modulo 256, all from the same register. -/
def Obligations.GenerationFollowsTheCellRule : Prop :=
  ∀ (t : BitVec 8) (x : Wide) (i : Nat), i < 256 →
    cell (generation t x) i =
      t.getLsbD (4 * (cell x (i + 255)).toNat + 2 * (cell x i).toNat + (cell x (i + 1)).toNat)

/-- R102: `evolve` is the identity at 0 generations, and each further generation applies R101 to the
result of those before. -/
def Obligations.EvolveAppliesGenerationsInTurn : Prop :=
  ∀ (x : Wide) (t : BitVec 8), evolve x t 0 = x ∧
    ∀ g, evolve x t (g + 1) = generation t (evolve x t g)

/-- R103: the closed form of one generation of rule 30 in the value view. -/
def Obligations.RuleThirtyHasItsClosedForm : Prop :=
  ∀ x : Wide, generation 0x1E#8 x = x.rotateRight 1 ^^^ (x ||| x.rotateLeft 1)

/-- R104: one generation limb by limb, the boundary bits threaded from the neighbouring limbs, for any
rule table, and for rule 30 `Lw ^ (C | Rw)`. -/
def Obligations.GenerationThreadsLimbBoundaries : Prop :=
  ∀ (t : BitVec 8) (x : Reg) (m : BitVec 2),
    let c := x.limb m
    let lw := (c >>> 1) ||| (x.limb (m - 1#2) <<< 63)
    let rw := (c <<< 1) ||| (x.limb (m + 1#2) >>> 63)
    (∀ b, b < 64 → ((Reg.ofVal (generation t x.val)).limb m).getLsbD b =
      t.getLsbD (4 * (lw.getLsbD b).toNat + 2 * (c.getLsbD b).toNat + (rw.getLsbD b).toNat)) ∧
    (Reg.ofVal (generation 0x1E#8 x.val)).limb m = lw ^^^ (c ||| rw)

/-- The rule tables R105 names: rule 30 is 0x1E; 0xCC keeps every cell, 0xF0 takes the left neighbour,
0xAA the right one, 0x00 and 0xFF are constant. -/
def Obligations.NamedRuleTablesActAsStated : Prop :=
  Config.rule30 = 30#8 ∧
  ∀ x : Wide, generation 0xCC#8 x = x ∧ generation 0xF0#8 x = x.rotateRight 1 ∧
    generation 0xAA#8 x = x.rotateLeft 1 ∧ generation 0x00#8 x = 0#256 ∧
    generation 0xFF#8 x = BitVec.allOnes 256

/-- The five laws of R107: evolution commutes with every rotation of the ring, evolutions compose, every
period of a register is kept, rule 30 keeps the zero register and takes the all-one register to zero, and
it spreads a single cell to itself and its two neighbours. -/
def Obligations.RuleEngineObeysItsLaws : Prop :=
  (∀ (x : Wide) (t : BitVec 8) (g n : Nat),
    evolve (x.rotateRight n) t g = (evolve x t g).rotateRight n) ∧
  (∀ (x : Wide) (t : BitVec 8) (a b : Nat), evolve (evolve x t a) t b = evolve x t (a + b)) ∧
  (∀ (x : Wide) (t : BitVec 8) (g n : Nat), x.rotateRight n = x →
    (evolve x t g).rotateRight n = evolve x t g) ∧
  (∀ (x : Wide) (t : BitVec 8) (g : Nat), hi128 x = lo128 x →
    hi128 (evolve x t g) = lo128 (evolve x t g)) ∧
  (∀ g, evolve 0#256 0x1E#8 g = 0#256) ∧
  evolve (BitVec.allOnes 256) 0x1E#8 1 = 0#256 ∧
  (∀ (x : Wide) (p : Nat), p < 256 → (∀ i, i < 256 → cell x i = decide (i = p)) →
    ∀ i, i < 256 → cell (evolve x 0x1E#8 1) i =
      decide (i = (p + 255) % 256 ∨ i = p ∨ i = (p + 1) % 256))

/-! ## The Key Scheduler -/

/-- R121: limb `m` of the mixing vector is `k[m]` where it meets the subkey's index, else `k[m] + k[m] *
k[j]` modulo 2^64, which is `k[m] * (1 + k[j])`. -/
def Obligations.MixingVectorFollowsItsFormula : Prop :=
  ∀ (k : Reg) (j m : BitVec 2),
    (m = j → (mixingVector k j).limb m = k.limb m) ∧
    (m ≠ j → ((mixingVector k j).limb m).toNat =
        ((k.limb m).toNat + (k.limb m).toNat * (k.limb j).toNat) % 2 ^ 64 ∧
      (mixingVector k j).limb m = k.limb m * (1#64 + k.limb j))

/-- R122: each subkey is one pass of 255 generations of rule 30 over its mixing vector. -/
def Obligations.SubkeysAreOnePassOfTheirMixingVectors : Prop :=
  ∀ (k : Reg) (j : BitVec 2),
    (derive k).subkey j = Reg.ofVal (evolve (mixingVector k j).val 0x1E#8 255)

/-- The weak keys of R124: the zero key gives zero subkeys; a key word of all ones zeroes every other limb
of its mixing vector; four equal words `c` with `c * c = 0` give subkeys of four equal limbs; the key of
all ones gives subkeys that are each the one before rotated by 64 positions. -/
def Obligations.WeakKeysExpandByTheRules : Prop :=
  derive Reg.zero = ScheduledKey.zero ∧
  (∀ (k : Reg) (j m : BitVec 2), k.limb j = BitVec.allOnes 64 → m ≠ j → (mixingVector k j).limb m = 0#64) ∧
  (∀ (c : Word64) (j m n : BitVec 2), c * c = 0#64 →
    ((derive ⟨c, c, c, c⟩).subkey j).limb m = ((derive ⟨c, c, c, c⟩).subkey j).limb n) ∧
  (∀ (k : Reg) (j : BitVec 2), (∀ m, k.limb m = BitVec.allOnes 64) → j ≠ 3#2 →
    ((derive k).subkey (j + 1#2)).val = (((derive k).subkey j).val).rotateRight 64)

/-! ## The Feistel Core -/

/-- The subkey of step `s`, counting steps from 0, in encryption (R144) and, reversed, in decryption
(R147). -/
def Sys2Proof.cipherSubkey (sk : ScheduledKey) (reversed : Bool) (s : Nat) : Wide :=
  (sk.subkey (BitVec.ofNat 2 (if reversed then 3 - s % 4 else s % 4))).val

/-- The 64 steps one by one: from an even count of steps the left half is updated, from an odd count the
right (R142, R143). -/
def Sys2Proof.cipherSteps (sk : ScheduledKey) (reversed : Bool) : Nat → Halves → Halves
  | 0, h => h
  | s + 1, h =>
    let g := cipherSteps sk reversed s h
    let k := cipherSubkey sk reversed s
    if s % 2 = 0 then ⟨g.left ^^^ roundFunction g.right k, g.right⟩
    else ⟨g.left, g.right ^^^ roundFunction g.left k⟩

/-- The cipher down to the rule engine: the round function is one pass of 255 generations of rule 30 over
the half written twice, XORed with the subkey, folded to 128 bits limb by limb (R11, R141); encryption and
decryption start from the block's limbs 0, 1 and 2, 3 as left and right half (R140), make 64 alternating
half-updates with K1..K4 repeated forward or in reverse (R142, R143, R144, R146, R147, R148), and put the
final right half into limbs 0, 1 and the final left half into limbs 2, 3 (R145). Limb 0 of a register holds
its most significant bits (R10). -/
def Obligations.CipherIsSixtyFourAlternatingSteps : Prop :=
  (∀ x : Reg, x.val.toNat =
    x.l0.toNat * 2 ^ 192 + x.l1.toNat * 2 ^ 128 + x.l2.toNat * 2 ^ 64 + x.l3.toNat) ∧
  (∀ x : Reg, hi128 x.val = (x.l0 ++ x.l1 : BitVec (64 + 64)) ∧
    lo128 x.val = (x.l2 ++ x.l3 : BitVec (64 + 64))) ∧
  (∀ a b c d : Word64, joinHalves (a ++ b : BitVec (64 + 64)) (c ++ d : BitVec (64 + 64)) =
    (⟨a, b, c, d⟩ : Reg).val) ∧
  (∀ (v : Half) (k : Wide), roundFunction v k =
    hi128 (evolve (joinHalves v v ^^^ k) 0x1E#8 255) ^^^ lo128 (evolve (joinHalves v v ^^^ k) 0x1E#8 255)) ∧
  (∀ (a b : Word64) (k w : Reg),
    w.val = evolve (⟨a ^^^ k.l0, b ^^^ k.l1, a ^^^ k.l2, b ^^^ k.l3⟩ : Reg).val 0x1E#8 255 →
    roundFunction (a ++ b : BitVec (64 + 64)) k.val =
      ((w.l0 ^^^ w.l2) ++ (w.l1 ^^^ w.l3) : BitVec (64 + 64))) ∧
  (∀ (sk : ScheduledKey) (b o : Reg) (h h' : Halves),
    h = ⟨(b.l0 ++ b.l1 : BitVec (64 + 64)), (b.l2 ++ b.l3 : BitVec (64 + 64))⟩ →
    (h' = cipherSteps sk false 64 h ∧ o = encryptBlock sk b ∨
      h' = cipherSteps sk true 64 h ∧ o = decryptBlock sk b) →
    h'.right = (o.l0 ++ o.l1 : BitVec (64 + 64)) ∧ h'.left = (o.l2 ++ o.l3 : BitVec (64 + 64)))

/-- R149: decryption undoes encryption and encryption undoes decryption, for every ScheduledKey and every
block. -/
def Obligations.DecryptionAndEncryptionAreInverse : Prop :=
  ∀ (sk : ScheduledKey) (b : Reg),
    decryptBlock sk (encryptBlock sk b) = b ∧ encryptBlock sk (decryptBlock sk b) = b

/-- R150: a subkey of equal halves makes the round function zero, and a ScheduledKey of four such subkeys,
for example of the zero key or of four words 2^32, makes encryption exchange the halves. -/
def Obligations.EqualHalvesSubkeysOnlyExchangeHalves : Prop :=
  (∀ (v : Half) (k : Wide), hi128 k = lo128 k → roundFunction v k = 0#128) ∧
  (∀ (sk : ScheduledKey) (p : Reg), (∀ j, hi128 (sk.subkey j).val = lo128 (sk.subkey j).val) →
    encryptBlock sk p = ⟨p.l2, p.l3, p.l0, p.l1⟩) ∧
  (∀ (c : Word64) (j : BitVec 2), c = 0#64 ∨ c = 0x0000000100000000#64 →
    hi128 ((derive ⟨c, c, c, c⟩).subkey j).val = lo128 ((derive ⟨c, c, c, c⟩).subkey j).val)

/-! ## Completion -/

/-- The completion step of each command writes its result, sets DONE, clears BUSY (and for KEYSCHED sets
SK_VALID), and leaves ERR, BUSYERR, KEY, DIN and the valid bits alone (R108, R125, R151, R152, R175). -/
def Obligations.CompletionStepWritesTheResult : Prop :=
  ∀ (s : State) (x : Reg) (rule : BitVec 8) (gen : BitVec 32),
    (s.inflight = some (.evolve x rule gen) → completionStep s =
      { s with dout := Reg.ofVal (evolve x.val rule gen.toNat), inflight := none, done := true }) ∧
    (s.inflight = some (.keysched x) → completionStep s =
      { s with sk := derive x, skValid := true, inflight := none, done := true }) ∧
    (s.inflight = some (.encrypt x) → completionStep s =
      { s with dout := encryptBlock s.sk x, inflight := none, done := true }) ∧
    (s.inflight = some (.decrypt x) → completionStep s =
      { s with dout := decryptBlock s.sk x, inflight := none, done := true })

/-- EVOLVE with GEN = 0 is accepted, goes busy and completes with DOUT = DIN (R108 corner cases). -/
def Obligations.ZeroGenerationsCompleteWithTheInput : Prop :=
  ∀ (s : State) (rule : BitVec 8), s.busy = false → s.dinValid = 0b1111#4 →
    ∃ t, exec (.evolve rule 0#32) s = .next t ∧ t.busy = true ∧ t.dout = s.dout ∧
      (completionStep t).dout = s.din ∧ (completionStep t).busy = false

/-- The block decrypts what it encrypted: from two quiescent states with the same valid SK file, if the
second's DIN is the DOUT the first's ENCRYPT completed with, its DECRYPT completes with the first's DIN;
and the same with the two commands exchanged (R149, R151, R152). -/
def Obligations.BlockDecryptsWhatItEncrypted : Prop :=
  ∀ s s' : State, s.busy = false → s'.busy = false → s.skValid = true → s'.skValid = true →
    s.dinValid = 0b1111#4 → s'.dinValid = 0b1111#4 → s'.sk = s.sk →
    (∀ i j, (i = Instr.encrypt ∧ j = Instr.decrypt) ∨ (i = Instr.decrypt ∧ j = Instr.encrypt) →
      ∃ t t', exec i s = .next t ∧ exec j s' = .next t' ∧ t.busy = true ∧ t'.busy = true ∧
        (s'.din = (completionStep t).dout → (completionStep t').dout = s.din))

/-! ## The step -/

/-- When the transaction at the coming edge is the encoding of a well-formed instruction and `rst` is 0,
the step is that instruction's meaning on the state with the edge taken and `rdata` unspecified, and then
the engine's completion step if it occurs at this edge for a command already in flight. (The schedule and
the free value are the model's own: notes/assumptions/1.md, 2.md and 4.md.) -/
def Obligations.StepRunsThePresentedInstruction : Prop :=
  ∀ (s : State) (i : Instr) (f : Form), i.wellFormed = true → f = encode i → s.edge.rst = false →
    s.edge.txn = some (presented f) →
    ∃ t, exec i { s with
          port := s.port.tail, rdata := Config.freeWord s.draws, draws := s.draws + 1 } = .next t ∧
      step s = .next (if s.edge.completes = true ∧ s.busy = true then completionStep t else t)

/-- An edge without a transaction and without reset changes no state of the block, but for the completion
step if it occurs (R60, R229; the schedule is the model's own, notes/assumptions/1.md). -/
def Obligations.IdleEdgeOnlyCompletes : Prop :=
  ∀ s : State, s.edge.rst = false → s.edge.txn = none → ∃ t, step s = .next t ∧
    { t with rdata := s.rdata, draws := s.draws, port := s.port } =
      if s.edge.completes = true then completionStep s else s

/-- R220: an edge with `rst` = 1 gives every piece of state its reset value, whatever command is in
flight and whatever transaction is sampled there; and without it a command in flight stays in flight or
completes, so that nothing but reset abandons one. -/
def Obligations.ResetEdgeGivesResetValues : Prop :=
  (∀ s : State, s.edge.rst = true → ∃ t, step s = .next t ∧
    { t with rdata := State.reset.rdata, draws := State.reset.draws, port := State.reset.port } =
      State.reset) ∧
  (∀ (s t : State) (c : InFlight), s.inflight = some c → s.edge.rst = false → step s = .next t →
    t.inflight = some c ∨ ∃ u, u.inflight = some c ∧ t = completionStep u)

/-- R221: after reset the block is quiescent with DONE, ERR and BUSYERR 0, no valid operand word and no
ScheduledKey, STATUS reads 0, and so does every other register (R41). -/
def Obligations.ResetStateIsQuiescentAndZero : Prop :=
  State.reset.busy = false ∧ State.reset.done = false ∧ State.reset.err = .ok ∧
  State.reset.busyErr = false ∧ State.reset.keyValid = 0b0000#4 ∧ State.reset.dinValid = 0b0000#4 ∧
  State.reset.skValid = false ∧ State.reset.statusWord = 0#64 ∧
  ∀ i : WordIndex, State.reset.readReg (hostReg i) = 0#64

/-- R64: at an edge where a command completes, the transaction comes first, against the state before, and
the completion follows: a write to CMD, KEY or DIN is lost and sets BUSYERR, a read of STATUS still sees
BUSY = 1; at an edge with `rst` = 1 reset takes effect and the transaction does nothing. -/
def Obligations.TransactionPrecedesCompletion : Prop :=
  ∀ (s : State) (tx : Transaction), s.edge.txn = some tx → s.busy = true →
    (s.edge.rst = false → s.edge.completes = true →
      (∃ u, exec tx.instr (sampleEdge s) = .next u ∧ step s = .next (completionStep u)) ∧
      (tx.we = true → tx.widx = 0x00#5 ∨ (0x04#5 ≤ tx.widx ∧ tx.widx ≤ 0x0B#5) →
        step s = .next { completionStep (sampleEdge s) with busyErr := true }) ∧
      (tx.we = false → tx.widx = 0x01#5 →
        ∃ t, step s = .next t ∧ t.rdata.getLsbD 0 = true ∧ t.busy = false)) ∧
    (s.edge.rst = true → step s = .next (resetBlock (sampleEdge s)))

/-- No step faults and none is refused: every transaction is permitted at all times, and no command fails
after acceptance (R208, R212). -/
def Obligations.EveryStepAnswersANextState : Prop :=
  (∀ s : State, ∃ t, step s = .next t) ∧ (∀ (i : Instr) (s : State), ∃ t, exec i s = .next t)

/-- While a command is in flight, an edge without reset and without completion changes nothing but
BUSYERR, `rdata` and the model's own fields: not the record, nor KEY, DIN, DOUT, SK or any other field of
STATUS (R31, R37, R223). -/
def Obligations.BusyBlockKeepsItsState : Prop :=
  ∀ s t : State, s.busy = true → s.edge.rst = false → s.edge.completes = false → step s = .next t →
    { t with busyErr := s.busyErr, rdata := s.rdata, draws := s.draws, port := s.port } = s

/-- R40: only a KEYSCHED completion, CLEAR and reset change the SK file; ENCRYPT and DECRYPT, written or
completing, leave it as it is. -/
def Obligations.OnlyKeyschedClearAndResetChangeTheSkFile : Prop :=
  ∀ s t : State, step s = .next t →
    (t.sk ≠ s.sk →
      s.edge.rst = true ∨
      (s.edge.completes = true ∧ ∃ k, s.inflight = some (.keysched k) ∧ t.sk = derive k) ∨
      (s.busy = false ∧ s.fetch = some .clear ∧ t.sk = ScheduledKey.zero)) ∧
    (s.edge.rst = false → (∃ b, s.inflight = some (.encrypt b) ∨ s.inflight = some (.decrypt b)) →
      t.sk = s.sk) ∧
    (s.edge.rst = false → (s.fetch = some .encrypt ∨ s.fetch = some .decrypt) →
      (∀ k, s.inflight ≠ some (.keysched k)) → t.sk = s.sk)

/-- Only the completion of EVOLVE, ENCRYPT or DECRYPT writes DOUT; besides, CLEAR and reset zero it (R24,
R41). -/
def Obligations.OnlyCompletionsClearAndResetChangeDout : Prop :=
  ∀ s t : State, step s = .next t → t.dout ≠ s.dout →
    s.edge.rst = true ∨
    (s.edge.completes = true ∧ ∃ b, (∃ r g, s.inflight = some (.evolve b r g)) ∨
      s.inflight = some (.encrypt b) ∨ s.inflight = some (.decrypt b)) ∨
    (s.busy = false ∧ s.fetch = some .clear ∧ t.dout = Reg.zero)

/-- R31: BUSYERR becomes 1 exactly by a write to CMD, KEY or DIN that arrives while BUSY = 1, and the write
is ignored; it stays 1 until NOP executes, CLEAR executes or reset. -/
def Obligations.BusyErrIsSetAndClearedOnlyAsStated : Prop :=
  ∀ s t : State, step s = .next t →
    (s.busyErr = true → (t.busyErr = false ↔
      s.edge.rst = true ∨ (s.busy = false ∧ (s.fetch = some .nop ∨ s.fetch = some .clear)))) ∧
    (s.busyErr = false → (t.busyErr = true ↔
      s.edge.rst = false ∧ s.busy = true ∧
        ∃ tx, s.edge.txn = some tx ∧ tx.we = true ∧
          (tx.widx = 0x00#5 ∨ (0x04#5 ≤ tx.widx ∧ tx.widx ≤ 0x0B#5)))) ∧
    (s.edge.rst = false → s.busy = true → ∀ tx, s.edge.txn = some tx → tx.we = true →
      tx.widx = 0x00#5 ∨ (0x04#5 ≤ tx.widx ∧ tx.widx ≤ 0x0B#5) →
      t = { (if s.edge.completes = true then completionStep (sampleEdge s) else sampleEdge s) with
        busyErr := true })

/-- A host that keeps to R177 (no write to CMD, KEY or DIN and no read of DOUT or SK while BUSY = 1) loses
no write and reads no unspecified word: a word for KEY or DIN is stored and its valid bit set, a word for CMD
takes the effect of its command or raises the error R207 gives it, BUSYERR is not set, and a read answers what
the register holds, with no unspecified value drawn (the count of draws is the model's own,
notes/assumptions/2.md). -/
def Obligations.ObedientHostLosesNothing : Prop :=
  ∀ (s t : State) (i : Instr), hostMay s i = true → exec i s = .next t →
    (∀ m d, i = .hwrite (0x04#5 + m.setWidth 5) d →
      t = { s with key := s.key.setLimb m d, keyValid := s.keyValid ||| (1#4 <<< m.toNat) }) ∧
    (∀ m d, i = .hwrite (0x08#5 + m.setWidth 5) d →
      t = { s with din := s.din.setLimb m d, dinValid := s.dinValid ||| (1#4 <<< m.toNat) }) ∧
    (∀ c, i = c.toInstr ∨ (∃ d, i = .hwrite 0x00#5 d ∧ decodeCommand d = .ok c) →
      (commandError c s = none → t = commandEffect c s) ∧
      (∀ e, commandError c s = some e → t = { s with err := e, done := true })) ∧
    (∀ d, i = .hwrite 0x00#5 d → legalWord d = false → t = { s with err := .illegalCmd, done := true }) ∧
    (t.busyErr = true → s.busyErr = true) ∧
    (∀ r, i = .hread r → t.rdata = s.readReg (hostReg r)) ∧
    t.draws = s.draws

/-! ## Invariants -/

/-- The invariants of the state hold at reset. -/
def Obligations.InvariantsHoldAtReset : Prop :=
  StatusInv State.reset ∧ OperandInv State.reset ∧ KeyInv State.reset ∧ FreshInv State.reset

/-- Every step keeps the invariant of STATUS: a command in flight has DONE = 0 and ERR = 0, an error is
reported with DONE = 1, and ALLOCATION_FAILURE is never reported (R28, R29, R34, R203). -/
def Obligations.EveryStepKeepsTheStatusInvariant : Prop :=
  ∀ s t : State, StatusInv s → step s = .next t → StatusInv t

/-- Every step keeps: the operand copy of the command in flight is what KEY or DIN holds, and its valid
bits are consumed (R32, R33, R37). -/
def Obligations.EveryStepKeepsTheOperandCopy : Prop :=
  ∀ s t : State, OperandInv s → step s = .next t → OperandInv t

/-- Every step keeps: SK_VALID = 1 says the SK file is the ScheduledKey of some key, SK_VALID = 0 that it
is zero or being replaced, and no cipher command runs without it (R30, R40, R204, R226). -/
def Obligations.EveryStepKeepsTheScheduledKeyInvariant : Prop :=
  ∀ s t : State, KeyInv s → step s = .next t → KeyInv t

/-- Every step keeps: a quiescent block with DONE = 0 has run no command since reset (R29, R41, R221). -/
def Obligations.EveryStepKeepsTheFreshInvariant : Prop :=
  ∀ s t : State, FreshInv s → step s = .next t → FreshInv t

/-- What a step makes of STATUS and of the command in flight does not depend on the data: two states that
agree on STATUS (R27), on which command is in flight and on the port's schedule agree on them after a step,
whatever their keys, blocks, results and `rdata`. The completion moment is part of that schedule, which the
hypothesis makes equal: it and the count of draws are the model's own choice (notes/assumptions/1.md, 2.md), so
nothing is said here about latencies. -/
def Obligations.ControlDoesNotDependOnData : Prop :=
  ∀ s s' t t' : State, controlView s = controlView s' → step s = .next t → step s' = .next t' →
    controlView t = controlView t'

/-- A busy block becomes quiescent within one edge more than its schedule holds (R175, R227; that the
engine completes once the schedule is exhausted is the model's choice, notes/assumptions/1.md). -/
def Obligations.BusyBlockBecomesQuiescent : Prop :=
  ∀ s : State, s.busy = true →
    ∃ k t, k ≤ s.port.length + 1 ∧ Sys2Proof.core.run k s = .next t ∧ quiescent t = true

/-- Whatever latency the implementation has, a schedule that keeps it holds the command in flight until
the last of its clock cycles and completes it then (R227; the schedule is the model's own,
notes/assumptions/1.md). -/
def Obligations.CommandIsInFlightForItsLatency : Prop :=
  ∀ (s : State) (c : InFlight), s.inflight = some c → keepsLatency c s.port = true →
    (∀ k, k < latency c → ∃ t, Sys2Proof.core.run k s = .next t ∧ t.inflight = some c) ∧
    ∃ t, Sys2Proof.core.run (latency c) s = .next t ∧ t.busy = false ∧ t.done = true
end

