-- ==== Sys2Proof/Laws/Operands.lean ====
section
/-! SUPPORT. Limbs, the value view, halves and the register map: the small lemmas of Operands.lean. -/

namespace Sys2Proof.Machine

theorem bv2_cases (m : BitVec 2) : m = 0#2 ∨ m = 1#2 ∨ m = 2#2 ∨ m = 3#2 := by
  revert m; decide

@[simp] theorem Reg.limb_0 (x : Reg) : x.limb 0#2 = x.l0 := rfl
@[simp] theorem Reg.limb_1 (x : Reg) : x.limb 1#2 = x.l1 := rfl
@[simp] theorem Reg.limb_2 (x : Reg) : x.limb 2#2 = x.l2 := rfl
@[simp] theorem Reg.limb_3 (x : Reg) : x.limb 3#2 = x.l3 := rfl

@[simp] theorem Reg.limb_setLimb_same (x : Reg) (m : BitVec 2) (d : Word64) :
    (x.setLimb m d).limb m = d := by
  rcases bv2_cases m with rfl | rfl | rfl | rfl <;> rfl

theorem Reg.limb_setLimb_other (x : Reg) {m n : BitVec 2} (d : Word64) (h : n ≠ m) :
    (x.setLimb m d).limb n = x.limb n := by
  rcases bv2_cases m with rfl | rfl | rfl | rfl <;> rcases bv2_cases n with rfl | rfl | rfl | rfl <;>
    first | rfl | exact absurd rfl h

@[simp] theorem Reg.setLimb_setLimb (x : Reg) (m : BitVec 2) (d e : Word64) :
    (x.setLimb m d).setLimb m e = x.setLimb m e := by
  rcases bv2_cases m with rfl | rfl | rfl | rfl <;> rfl

/-- Bit `i` of the value view, limb by limb (R10). -/
theorem Reg.val_getLsbD (x : Reg) (i : Nat) :
    x.val.getLsbD i =
      if i < 64 then x.l3.getLsbD i
      else if i < 128 then x.l2.getLsbD (i - 64)
      else if i < 192 then x.l1.getLsbD (i - 128)
      else x.l0.getLsbD (i - 192) := by
  unfold Reg.val
  rw [BitVec.getLsbD_append, BitVec.getLsbD_append, BitVec.getLsbD_append]
  by_cases h1 : i < 64
  · rw [if_pos h1, if_pos h1]
  · rw [if_neg h1, if_neg h1]
    by_cases h2 : i < 128
    · rw [if_pos (show i - 64 < 64 by omega), if_pos h2]
    · rw [if_neg (show ¬ i - 64 < 64 by omega), if_neg h2, show i - 64 - 64 = i - 128 by omega]
      by_cases h3 : i < 192
      · rw [if_pos (show i - 128 < 64 by omega), if_pos h3]
      · rw [if_neg (show ¬ i - 128 < 64 by omega), if_neg h3, show i - 128 - 64 = i - 192 by omega]

/-- The limbs of a value view: bit `b` of each is one bit of the value (R10). -/
theorem Reg.ofVal_l0_getLsbD (v : Wide) (b : Nat) (h : b < 64) :
    (Reg.ofVal v).l0.getLsbD b = v.getLsbD (192 + b) := by simp [Reg.ofVal, h]
theorem Reg.ofVal_l1_getLsbD (v : Wide) (b : Nat) (h : b < 64) :
    (Reg.ofVal v).l1.getLsbD b = v.getLsbD (128 + b) := by simp [Reg.ofVal, h]
theorem Reg.ofVal_l2_getLsbD (v : Wide) (b : Nat) (h : b < 64) :
    (Reg.ofVal v).l2.getLsbD b = v.getLsbD (64 + b) := by simp [Reg.ofVal, h]
theorem Reg.ofVal_l3_getLsbD (v : Wide) (b : Nat) (h : b < 64) :
    (Reg.ofVal v).l3.getLsbD b = v.getLsbD b := by simp [Reg.ofVal, h]

/-- A register is what its limbs' bits are. -/
theorem Reg.ext_bits {x y : Reg} (h : ∀ i, i < 256 → x.val.getLsbD i = y.val.getLsbD i) : x = y := by
  obtain ⟨a, b, c, d⟩ := x
  obtain ⟨a', b', c', d'⟩ := y
  simp only [Reg.val_getLsbD] at h
  have h3 : d = d' := BitVec.eq_of_getLsbD_eq fun i hi => by
    have := h i (by omega)
    rwa [if_pos hi, if_pos hi] at this
  have h2 : c = c' := BitVec.eq_of_getLsbD_eq fun i hi => by
    have := h (64 + i) (by omega)
    simpa only [show ¬ 64 + i < 64 by omega, show 64 + i < 128 by omega, if_true, if_false,
      Nat.add_sub_cancel_left] using this
  have h1 : b = b' := BitVec.eq_of_getLsbD_eq fun i hi => by
    have := h (128 + i) (by omega)
    simpa only [show ¬ 128 + i < 64 by omega, show ¬ 128 + i < 128 by omega, show 128 + i < 192 by omega,
      if_true, if_false, Nat.add_sub_cancel_left] using this
  have h0 : a = a' := BitVec.eq_of_getLsbD_eq fun i hi => by
    have := h (192 + i) (by omega)
    simpa only [show ¬ 192 + i < 64 by omega, show ¬ 192 + i < 128 by omega, show ¬ 192 + i < 192 by omega,
      if_false, Nat.add_sub_cancel_left] using this
  subst h0 h1 h2 h3
  rfl

@[simp] theorem Reg.val_ofVal (v : Wide) : (Reg.ofVal v).val = v := by
  apply BitVec.eq_of_getLsbD_eq
  intro i hi
  rw [Reg.val_getLsbD]
  by_cases h1 : i < 64
  · rw [if_pos h1, Reg.ofVal_l3_getLsbD v i h1]
  · rw [if_neg h1]
    by_cases h2 : i < 128
    · rw [if_pos h2, Reg.ofVal_l2_getLsbD v _ (by omega), show 64 + (i - 64) = i by omega]
    · rw [if_neg h2]
      by_cases h3 : i < 192
      · rw [if_pos h3, Reg.ofVal_l1_getLsbD v _ (by omega), show 128 + (i - 128) = i by omega]
      · rw [if_neg h3, Reg.ofVal_l0_getLsbD v _ (by omega), show 192 + (i - 192) = i by omega]

@[simp] theorem Reg.ofVal_val (x : Reg) : Reg.ofVal x.val = x :=
  Reg.ext_bits fun i _ => by rw [Reg.val_ofVal]

theorem hi128_getLsbD (x : Wide) (i : Nat) (h : i < 128) : (hi128 x).getLsbD i = x.getLsbD (128 + i) := by
  simp [hi128, h]

theorem lo128_getLsbD (x : Wide) (i : Nat) (h : i < 128) : (lo128 x).getLsbD i = x.getLsbD i := by
  simp [lo128, h]

theorem joinHalves_getLsbD (a b : Half) (i : Nat) :
    (joinHalves a b).getLsbD i = if i < 128 then b.getLsbD i else a.getLsbD (i - 128) := by
  unfold joinHalves; rw [BitVec.getLsbD_append]

@[simp] theorem hi128_joinHalves (a b : Half) : hi128 (joinHalves a b) = a := by
  apply BitVec.eq_of_getLsbD_eq
  intro i hi
  rw [hi128_getLsbD _ _ hi, joinHalves_getLsbD, if_neg (by omega),
    show 128 + i - 128 = i by omega]

@[simp] theorem lo128_joinHalves (a b : Half) : lo128 (joinHalves a b) = b := by
  apply BitVec.eq_of_getLsbD_eq
  intro i hi
  rw [lo128_getLsbD _ _ hi, joinHalves_getLsbD, if_pos hi]

@[simp] theorem joinHalves_hi_lo (x : Wide) : joinHalves (hi128 x) (lo128 x) = x := by
  apply BitVec.eq_of_getLsbD_eq
  intro i hi
  rw [joinHalves_getLsbD]
  split
  · rw [lo128_getLsbD _ _ (by omega)]
  · rw [hi128_getLsbD _ _ (by omega), show 128 + (i - 128) = i by omega]

/-- The register map read backwards: a register name's word index names that register (R35). -/
@[simp] theorem hostReg_index (r : HostReg) : hostReg r.index = r := by
  cases r with
  | cmd => rfl
  | status => rfl
  | reserved => rfl
  | key m => rcases bv2_cases m with rfl | rfl | rfl | rfl <;> rfl
  | din m => rcases bv2_cases m with rfl | rfl | rfl | rfl <;> rfl
  | dout m => rcases bv2_cases m with rfl | rfl | rfl | rfl <;> rfl
  | sk j m =>
    rcases bv2_cases j with rfl | rfl | rfl | rfl <;> rcases bv2_cases m with rfl | rfl | rfl | rfl <;> rfl

end Sys2Proof.Machine
end

