-- ==== Sys2Proof/Laws/CaEngine.lean ====
section
/-! SUPPORT. The bits of the pieces a generation is made of, and the limbs of a mixing vector: what a proof
about the rule engine or the key scheduler cites instead of unfolding them. -/

namespace Sys2Proof.Machine

/-- A rotation right by `n` brings each bit from `n` places above it, around the ring (R12). -/
theorem rotateRight_bit (x : Wide) (n : Nat) {i : Nat} (hi : i < 256) :
    (x.rotateRight n).getLsbD i = x.getLsbD ((i + n) % 256) := by
  rw [BitVec.getLsbD_rotateRight]
  by_cases h : i < 256 - n % 256
  · simp only [h, decide_true, cond_true]
    rw [show n % 256 + i = (i + n) % 256 by omega]
  · simp only [h, hi, decide_true, decide_false, cond_false, Bool.true_and]
    rw [show i - (256 - n % 256) = (i + n) % 256 by omega]

/-- A rotation left by `n` brings each bit from `n` places below it, around the ring (R12). -/
theorem rotateLeft_bit (x : Wide) (n : Nat) {i : Nat} (hi : i < 256) :
    (x.rotateLeft n).getLsbD i = x.getLsbD ((i + (256 - n % 256)) % 256) := by
  rw [BitVec.getLsbD_rotateLeft]
  by_cases h : i < n % 256
  · simp only [h, decide_true, cond_true]
    rw [show 256 - n % 256 + i = (i + (256 - n % 256)) % 256 by omega]
  · simp only [h, hi, decide_true, decide_false, cond_false, Bool.true_and]
    rw [show i - n % 256 = (i + (256 - n % 256)) % 256 by omega]

/-- `holding b x` marks exactly the positions that hold `b`. -/
theorem holding_bit (b : Bool) (x : Wide) {i : Nat} (hi : i < 256) :
    (holding b x).getLsbD i = (b == x.getLsbD i) := by
  unfold holding; cases b <;> simp [hi]

/-- One term of a generation: the table's entry, at the positions whose neighbourhood value is `n` (R101). -/
theorem ruleTerm_bit (t : BitVec 8) (x : Wide) (n : Nat) {i : Nat} (hi : i < 256) :
    (ruleTerm t x n).getLsbD i =
      (t.getLsbD n && ((n.testBit 2 == x.getLsbD ((i + 1) % 256)) && (n.testBit 1 == x.getLsbD i)
        && (n.testBit 0 == x.getLsbD ((i + 255) % 256)))) := by
  unfold ruleTerm neighbourhood
  cases t.getLsbD n
  · simp
  · simp only [if_true, BitVec.getLsbD_and, holding_bit _ _ hi, rotateRight_bit _ _ hi,
      rotateLeft_bit _ _ hi, Bool.true_and]

/-- A limb of a register read from its value view (R9, R10). -/
theorem limb_ofVal_bit (v : Wide) (m : BitVec 2) {b : Nat} (hb : b < 64) :
    ((Reg.ofVal v).limb m).getLsbD b = v.getLsbD (64 * (3 - m.toNat) + b) := by
  rcases bv2_cases m with rfl | rfl | rfl | rfl
  · exact Reg.ofVal_l0_getLsbD _ _ hb
  · exact Reg.ofVal_l1_getLsbD _ _ hb
  · exact Reg.ofVal_l2_getLsbD _ _ hb
  · rw [show 64 * (3 - (3#2).toNat) + b = b by simp]
    exact Reg.ofVal_l3_getLsbD _ _ hb

/-- The limbs of a mixing vector are its `mixingLimb`s (R121). -/
theorem mixingVector_limb (k : Reg) (j m : BitVec 2) : (mixingVector k j).limb m = mixingLimb k j m := by
  rcases bv2_cases m with rfl | rfl | rfl | rfl <;> rfl

end Sys2Proof.Machine
end

