-- ==== Sys2Proof/Laws/PerInstr.lean ====
section
/-! SUPPORT. Statements made once per constructor of Instr: every encoding lies in its row of the opcode
table. -/

namespace Sys2Proof.Laws

/-- The row of spec/opcode_table.json an encoded form must match, as its match and mask. -/
def inRow (f : Form) (pattern mask : Nat) : Prop :=
  match f with
  | .ht h _ => h.toNat &&& mask = pattern
  | .cw w => w.toNat &&& mask = pattern

/-- The encoding of an instruction lies in its row of the opcode table. -/
def EncodesItsRow.Statement : Instr → Prop
  | .hread i => inRow (encode (.hread i)) 0x00 0x20
  | .hwrite i d => inRow (encode (.hwrite i d)) 0x20 0x20
  | .nop => inRow (encode .nop) 0x0 0xFFFFFFFFFFFFFFFF
  | .evolve rule gen => inRow (encode (.evolve rule gen)) 0x1 0xFFFF0000000000FF
  | .keysched => inRow (encode .keysched) 0x2 0xFFFFFFFFFFFFFFFF
  | .encrypt => inRow (encode .encrypt) 0x3 0xFFFFFFFFFFFFFFFF
  | .decrypt => inRow (encode .decrypt) 0x4 0xFFFFFFFFFFFFFFFF
  | .clear => inRow (encode .clear) 0x5 0xFFFFFFFFFFFFFFFF

theorem EncodesItsRow.hread (i : WordIndex) : EncodesItsRow.Statement (.hread i) := by
  show (0#1 ++ i : BitVec (1 + 5)).toNat &&& 0x20 = 0x00
  revert i; decide

theorem EncodesItsRow.hwrite (i : WordIndex) (d : Word64) : EncodesItsRow.Statement (.hwrite i d) := by
  show (1#1 ++ i : BitVec (1 + 5)).toNat &&& 0x20 = 0x20
  revert i; decide

theorem EncodesItsRow.nop : EncodesItsRow.Statement .nop := by
  show (0 : Nat) &&& _ = 0
  decide

theorem evolveWord_masked (rule : BitVec 8) (gen : BitVec 32) :
    encodeCommand (.evolve rule gen) &&& 0xFFFF0000000000FF#64 = 0x1#64 := by
  apply BitVec.eq_of_getLsbD_eq
  intro i hi
  simp only [encodeCommand, BitVec.getLsbD_and, BitVec.getLsbD_append]
  by_cases h8 : i < 8
  · interval_cases i <;> simp
  · by_cases h48 : i < 48
    · have hm : (0xFFFF0000000000FF#64).getLsbD i = false := by
        interval_cases i <;> rfl
      have h1 : (0x1#64).getLsbD i = false := by interval_cases i <;> rfl
      rw [hm, h1, Bool.and_false]
    · have h1 : (0x1#64).getLsbD i = false := by interval_cases i <;> rfl
      rw [h1, if_neg (by omega), if_neg (by omega), if_neg (by omega), if_neg (by omega)]
      simp

theorem EncodesItsRow.evolve (rule : BitVec 8) (gen : BitVec 32) :
    EncodesItsRow.Statement (.evolve rule gen) := by
  show (encodeCommand (.evolve rule gen)).toNat &&& (0xFFFF0000000000FF#64).toNat = (0x1#64).toNat
  rw [← BitVec.toNat_and, evolveWord_masked]

theorem EncodesItsRow.keysched : EncodesItsRow.Statement .keysched := by
  show (2 : Nat) &&& _ = 2
  decide

theorem EncodesItsRow.encrypt : EncodesItsRow.Statement .encrypt := by
  show (3 : Nat) &&& _ = 3
  decide

theorem EncodesItsRow.decrypt : EncodesItsRow.Statement .decrypt := by
  show (4 : Nat) &&& _ = 4
  decide

theorem EncodesItsRow.clear : EncodesItsRow.Statement .clear := by
  show (5 : Nat) &&& _ = 5
  decide

end Sys2Proof.Laws
end

