-- ==== Sys2Proof/Laws/State.lean ====
section
/-! SUPPORT. One lemma per field per update of the state, so that no proof unfolds a record update. -/

namespace Sys2Proof.Machine

section driveRead

@[simp] theorem driveRead_key (v : Word64) (s : State) : (driveRead v s).key = s.key := rfl
@[simp] theorem driveRead_din (v : Word64) (s : State) : (driveRead v s).din = s.din := rfl
@[simp] theorem driveRead_dout (v : Word64) (s : State) : (driveRead v s).dout = s.dout := rfl
@[simp] theorem driveRead_sk (v : Word64) (s : State) : (driveRead v s).sk = s.sk := rfl
@[simp] theorem driveRead_done (v : Word64) (s : State) : (driveRead v s).done = s.done := rfl
@[simp] theorem driveRead_skValid (v : Word64) (s : State) : (driveRead v s).skValid = s.skValid := rfl
@[simp] theorem driveRead_busyErr (v : Word64) (s : State) : (driveRead v s).busyErr = s.busyErr := rfl
@[simp] theorem driveRead_keyValid (v : Word64) (s : State) : (driveRead v s).keyValid = s.keyValid := rfl
@[simp] theorem driveRead_dinValid (v : Word64) (s : State) : (driveRead v s).dinValid = s.dinValid := rfl
@[simp] theorem driveRead_err (v : Word64) (s : State) : (driveRead v s).err = s.err := rfl
@[simp] theorem driveRead_inflight (v : Word64) (s : State) : (driveRead v s).inflight = s.inflight := rfl
@[simp] theorem driveRead_rdata (v : Word64) (s : State) : (driveRead v s).rdata = v := rfl
@[simp] theorem driveRead_draws (v : Word64) (s : State) : (driveRead v s).draws = s.draws := rfl
@[simp] theorem driveRead_port (v : Word64) (s : State) : (driveRead v s).port = s.port := rfl
@[simp] theorem driveRead_busy (v : Word64) (s : State) : (driveRead v s).busy = s.busy := rfl

end driveRead

section driveFree

@[simp] theorem driveFree_key (s : State) : (driveFree s).key = s.key := rfl
@[simp] theorem driveFree_din (s : State) : (driveFree s).din = s.din := rfl
@[simp] theorem driveFree_dout (s : State) : (driveFree s).dout = s.dout := rfl
@[simp] theorem driveFree_sk (s : State) : (driveFree s).sk = s.sk := rfl
@[simp] theorem driveFree_done (s : State) : (driveFree s).done = s.done := rfl
@[simp] theorem driveFree_skValid (s : State) : (driveFree s).skValid = s.skValid := rfl
@[simp] theorem driveFree_busyErr (s : State) : (driveFree s).busyErr = s.busyErr := rfl
@[simp] theorem driveFree_keyValid (s : State) : (driveFree s).keyValid = s.keyValid := rfl
@[simp] theorem driveFree_dinValid (s : State) : (driveFree s).dinValid = s.dinValid := rfl
@[simp] theorem driveFree_err (s : State) : (driveFree s).err = s.err := rfl
@[simp] theorem driveFree_inflight (s : State) : (driveFree s).inflight = s.inflight := rfl
@[simp] theorem driveFree_rdata (s : State) : (driveFree s).rdata = Config.freeWord s.draws := rfl
@[simp] theorem driveFree_draws (s : State) : (driveFree s).draws = s.draws + 1 := rfl
@[simp] theorem driveFree_port (s : State) : (driveFree s).port = s.port := rfl
@[simp] theorem driveFree_busy (s : State) : (driveFree s).busy = s.busy := rfl

end driveFree

section loseWrite

@[simp] theorem loseWrite_key (s : State) : (loseWrite s).key = s.key := rfl
@[simp] theorem loseWrite_din (s : State) : (loseWrite s).din = s.din := rfl
@[simp] theorem loseWrite_dout (s : State) : (loseWrite s).dout = s.dout := rfl
@[simp] theorem loseWrite_sk (s : State) : (loseWrite s).sk = s.sk := rfl
@[simp] theorem loseWrite_done (s : State) : (loseWrite s).done = s.done := rfl
@[simp] theorem loseWrite_skValid (s : State) : (loseWrite s).skValid = s.skValid := rfl
@[simp] theorem loseWrite_busyErr (s : State) : (loseWrite s).busyErr = true := rfl
@[simp] theorem loseWrite_keyValid (s : State) : (loseWrite s).keyValid = s.keyValid := rfl
@[simp] theorem loseWrite_dinValid (s : State) : (loseWrite s).dinValid = s.dinValid := rfl
@[simp] theorem loseWrite_err (s : State) : (loseWrite s).err = s.err := rfl
@[simp] theorem loseWrite_inflight (s : State) : (loseWrite s).inflight = s.inflight := rfl
@[simp] theorem loseWrite_rdata (s : State) : (loseWrite s).rdata = s.rdata := rfl
@[simp] theorem loseWrite_draws (s : State) : (loseWrite s).draws = s.draws := rfl
@[simp] theorem loseWrite_port (s : State) : (loseWrite s).port = s.port := rfl
@[simp] theorem loseWrite_busy (s : State) : (loseWrite s).busy = s.busy := rfl

end loseWrite

section storeKey

@[simp] theorem storeKey_key (m : BitVec 2) (d : Word64) (s : State) : (storeKey m d s).key = s.key.setLimb m d := rfl
@[simp] theorem storeKey_din (m : BitVec 2) (d : Word64) (s : State) : (storeKey m d s).din = s.din := rfl
@[simp] theorem storeKey_dout (m : BitVec 2) (d : Word64) (s : State) : (storeKey m d s).dout = s.dout := rfl
@[simp] theorem storeKey_sk (m : BitVec 2) (d : Word64) (s : State) : (storeKey m d s).sk = s.sk := rfl
@[simp] theorem storeKey_done (m : BitVec 2) (d : Word64) (s : State) : (storeKey m d s).done = s.done := rfl
@[simp] theorem storeKey_skValid (m : BitVec 2) (d : Word64) (s : State) : (storeKey m d s).skValid = s.skValid := rfl
@[simp] theorem storeKey_busyErr (m : BitVec 2) (d : Word64) (s : State) : (storeKey m d s).busyErr = s.busyErr := rfl
@[simp] theorem storeKey_keyValid (m : BitVec 2) (d : Word64) (s : State) : (storeKey m d s).keyValid = setValid s.keyValid m := rfl
@[simp] theorem storeKey_dinValid (m : BitVec 2) (d : Word64) (s : State) : (storeKey m d s).dinValid = s.dinValid := rfl
@[simp] theorem storeKey_err (m : BitVec 2) (d : Word64) (s : State) : (storeKey m d s).err = s.err := rfl
@[simp] theorem storeKey_inflight (m : BitVec 2) (d : Word64) (s : State) : (storeKey m d s).inflight = s.inflight := rfl
@[simp] theorem storeKey_rdata (m : BitVec 2) (d : Word64) (s : State) : (storeKey m d s).rdata = s.rdata := rfl
@[simp] theorem storeKey_draws (m : BitVec 2) (d : Word64) (s : State) : (storeKey m d s).draws = s.draws := rfl
@[simp] theorem storeKey_port (m : BitVec 2) (d : Word64) (s : State) : (storeKey m d s).port = s.port := rfl
@[simp] theorem storeKey_busy (m : BitVec 2) (d : Word64) (s : State) : (storeKey m d s).busy = s.busy := rfl

end storeKey

section storeDin

@[simp] theorem storeDin_key (m : BitVec 2) (d : Word64) (s : State) : (storeDin m d s).key = s.key := rfl
@[simp] theorem storeDin_din (m : BitVec 2) (d : Word64) (s : State) : (storeDin m d s).din = s.din.setLimb m d := rfl
@[simp] theorem storeDin_dout (m : BitVec 2) (d : Word64) (s : State) : (storeDin m d s).dout = s.dout := rfl
@[simp] theorem storeDin_sk (m : BitVec 2) (d : Word64) (s : State) : (storeDin m d s).sk = s.sk := rfl
@[simp] theorem storeDin_done (m : BitVec 2) (d : Word64) (s : State) : (storeDin m d s).done = s.done := rfl
@[simp] theorem storeDin_skValid (m : BitVec 2) (d : Word64) (s : State) : (storeDin m d s).skValid = s.skValid := rfl
@[simp] theorem storeDin_busyErr (m : BitVec 2) (d : Word64) (s : State) : (storeDin m d s).busyErr = s.busyErr := rfl
@[simp] theorem storeDin_keyValid (m : BitVec 2) (d : Word64) (s : State) : (storeDin m d s).keyValid = s.keyValid := rfl
@[simp] theorem storeDin_dinValid (m : BitVec 2) (d : Word64) (s : State) : (storeDin m d s).dinValid = setValid s.dinValid m := rfl
@[simp] theorem storeDin_err (m : BitVec 2) (d : Word64) (s : State) : (storeDin m d s).err = s.err := rfl
@[simp] theorem storeDin_inflight (m : BitVec 2) (d : Word64) (s : State) : (storeDin m d s).inflight = s.inflight := rfl
@[simp] theorem storeDin_rdata (m : BitVec 2) (d : Word64) (s : State) : (storeDin m d s).rdata = s.rdata := rfl
@[simp] theorem storeDin_draws (m : BitVec 2) (d : Word64) (s : State) : (storeDin m d s).draws = s.draws := rfl
@[simp] theorem storeDin_port (m : BitVec 2) (d : Word64) (s : State) : (storeDin m d s).port = s.port := rfl
@[simp] theorem storeDin_busy (m : BitVec 2) (d : Word64) (s : State) : (storeDin m d s).busy = s.busy := rfl

end storeDin

section raiseError

@[simp] theorem raiseError_key (e : ErrCode) (s : State) : (raiseError e s).key = s.key := rfl
@[simp] theorem raiseError_din (e : ErrCode) (s : State) : (raiseError e s).din = s.din := rfl
@[simp] theorem raiseError_dout (e : ErrCode) (s : State) : (raiseError e s).dout = s.dout := rfl
@[simp] theorem raiseError_sk (e : ErrCode) (s : State) : (raiseError e s).sk = s.sk := rfl
@[simp] theorem raiseError_done (e : ErrCode) (s : State) : (raiseError e s).done = true := rfl
@[simp] theorem raiseError_skValid (e : ErrCode) (s : State) : (raiseError e s).skValid = s.skValid := rfl
@[simp] theorem raiseError_busyErr (e : ErrCode) (s : State) : (raiseError e s).busyErr = s.busyErr := rfl
@[simp] theorem raiseError_keyValid (e : ErrCode) (s : State) : (raiseError e s).keyValid = s.keyValid := rfl
@[simp] theorem raiseError_dinValid (e : ErrCode) (s : State) : (raiseError e s).dinValid = s.dinValid := rfl
@[simp] theorem raiseError_err (e : ErrCode) (s : State) : (raiseError e s).err = e := rfl
@[simp] theorem raiseError_inflight (e : ErrCode) (s : State) : (raiseError e s).inflight = s.inflight := rfl
@[simp] theorem raiseError_rdata (e : ErrCode) (s : State) : (raiseError e s).rdata = s.rdata := rfl
@[simp] theorem raiseError_draws (e : ErrCode) (s : State) : (raiseError e s).draws = s.draws := rfl
@[simp] theorem raiseError_port (e : ErrCode) (s : State) : (raiseError e s).port = s.port := rfl
@[simp] theorem raiseError_busy (e : ErrCode) (s : State) : (raiseError e s).busy = s.busy := rfl

end raiseError

section accept

@[simp] theorem accept_key (c : InFlight) (s : State) : (accept c s).key = s.key := by cases c <;> rfl
@[simp] theorem accept_din (c : InFlight) (s : State) : (accept c s).din = s.din := by cases c <;> rfl
@[simp] theorem accept_dout (c : InFlight) (s : State) : (accept c s).dout = s.dout := by cases c <;> rfl
@[simp] theorem accept_sk (c : InFlight) (s : State) : (accept c s).sk = s.sk := by cases c <;> rfl
@[simp] theorem accept_done (c : InFlight) (s : State) : (accept c s).done = false := by cases c <;> rfl
@[simp] theorem accept_busyErr (c : InFlight) (s : State) : (accept c s).busyErr = s.busyErr := by cases c <;> rfl
@[simp] theorem accept_err (c : InFlight) (s : State) : (accept c s).err = .ok := by cases c <;> rfl
@[simp] theorem accept_inflight (c : InFlight) (s : State) : (accept c s).inflight = some c := by cases c <;> rfl
@[simp] theorem accept_rdata (c : InFlight) (s : State) : (accept c s).rdata = s.rdata := by cases c <;> rfl
@[simp] theorem accept_draws (c : InFlight) (s : State) : (accept c s).draws = s.draws := by cases c <;> rfl
@[simp] theorem accept_port (c : InFlight) (s : State) : (accept c s).port = s.port := by cases c <;> rfl
@[simp] theorem accept_evolve_keyValid (x : Reg) (r : BitVec 8) (g : BitVec 32) (s : State) : (accept (.evolve x r g) s).keyValid = s.keyValid := rfl
@[simp] theorem accept_evolve_dinValid (x : Reg) (r : BitVec 8) (g : BitVec 32) (s : State) : (accept (.evolve x r g) s).dinValid = 0#4 := rfl
@[simp] theorem accept_evolve_skValid (x : Reg) (r : BitVec 8) (g : BitVec 32) (s : State) : (accept (.evolve x r g) s).skValid = s.skValid := rfl
@[simp] theorem accept_keysched_keyValid (k : Reg) (s : State) : (accept (.keysched k) s).keyValid = 0#4 := rfl
@[simp] theorem accept_keysched_dinValid (k : Reg) (s : State) : (accept (.keysched k) s).dinValid = s.dinValid := rfl
@[simp] theorem accept_keysched_skValid (k : Reg) (s : State) : (accept (.keysched k) s).skValid = false := rfl
@[simp] theorem accept_encrypt_keyValid (p : Reg) (s : State) : (accept (.encrypt p) s).keyValid = s.keyValid := rfl
@[simp] theorem accept_encrypt_dinValid (p : Reg) (s : State) : (accept (.encrypt p) s).dinValid = 0#4 := rfl
@[simp] theorem accept_encrypt_skValid (p : Reg) (s : State) : (accept (.encrypt p) s).skValid = s.skValid := rfl
@[simp] theorem accept_decrypt_keyValid (c : Reg) (s : State) : (accept (.decrypt c) s).keyValid = s.keyValid := rfl
@[simp] theorem accept_decrypt_dinValid (c : Reg) (s : State) : (accept (.decrypt c) s).dinValid = 0#4 := rfl
@[simp] theorem accept_decrypt_skValid (c : Reg) (s : State) : (accept (.decrypt c) s).skValid = s.skValid := rfl
@[simp] theorem accept_busy (c : InFlight) (s : State) : (accept c s).busy = true := by cases c <;> rfl

end accept

section finish

@[simp] theorem finish_key (s : State) : (finish s).key = s.key := rfl
@[simp] theorem finish_din (s : State) : (finish s).din = s.din := rfl
@[simp] theorem finish_dout (s : State) : (finish s).dout = s.dout := rfl
@[simp] theorem finish_sk (s : State) : (finish s).sk = s.sk := rfl
@[simp] theorem finish_done (s : State) : (finish s).done = true := rfl
@[simp] theorem finish_skValid (s : State) : (finish s).skValid = s.skValid := rfl
@[simp] theorem finish_busyErr (s : State) : (finish s).busyErr = s.busyErr := rfl
@[simp] theorem finish_keyValid (s : State) : (finish s).keyValid = s.keyValid := rfl
@[simp] theorem finish_dinValid (s : State) : (finish s).dinValid = s.dinValid := rfl
@[simp] theorem finish_err (s : State) : (finish s).err = s.err := rfl
@[simp] theorem finish_inflight (s : State) : (finish s).inflight = none := rfl
@[simp] theorem finish_rdata (s : State) : (finish s).rdata = s.rdata := rfl
@[simp] theorem finish_draws (s : State) : (finish s).draws = s.draws := rfl
@[simp] theorem finish_port (s : State) : (finish s).port = s.port := rfl
@[simp] theorem finish_busy (s : State) : (finish s).busy = false := rfl

end finish

section finishBlock

@[simp] theorem finishBlock_key (v : Reg) (s : State) : (finishBlock v s).key = s.key := rfl
@[simp] theorem finishBlock_din (v : Reg) (s : State) : (finishBlock v s).din = s.din := rfl
@[simp] theorem finishBlock_dout (v : Reg) (s : State) : (finishBlock v s).dout = v := rfl
@[simp] theorem finishBlock_sk (v : Reg) (s : State) : (finishBlock v s).sk = s.sk := rfl
@[simp] theorem finishBlock_done (v : Reg) (s : State) : (finishBlock v s).done = true := rfl
@[simp] theorem finishBlock_skValid (v : Reg) (s : State) : (finishBlock v s).skValid = s.skValid := rfl
@[simp] theorem finishBlock_busyErr (v : Reg) (s : State) : (finishBlock v s).busyErr = s.busyErr := rfl
@[simp] theorem finishBlock_keyValid (v : Reg) (s : State) : (finishBlock v s).keyValid = s.keyValid := rfl
@[simp] theorem finishBlock_dinValid (v : Reg) (s : State) : (finishBlock v s).dinValid = s.dinValid := rfl
@[simp] theorem finishBlock_err (v : Reg) (s : State) : (finishBlock v s).err = s.err := rfl
@[simp] theorem finishBlock_inflight (v : Reg) (s : State) : (finishBlock v s).inflight = none := rfl
@[simp] theorem finishBlock_rdata (v : Reg) (s : State) : (finishBlock v s).rdata = s.rdata := rfl
@[simp] theorem finishBlock_draws (v : Reg) (s : State) : (finishBlock v s).draws = s.draws := rfl
@[simp] theorem finishBlock_port (v : Reg) (s : State) : (finishBlock v s).port = s.port := rfl
@[simp] theorem finishBlock_busy (v : Reg) (s : State) : (finishBlock v s).busy = false := rfl

end finishBlock

section finishKey

@[simp] theorem finishKey_key (k : ScheduledKey) (s : State) : (finishKey k s).key = s.key := rfl
@[simp] theorem finishKey_din (k : ScheduledKey) (s : State) : (finishKey k s).din = s.din := rfl
@[simp] theorem finishKey_dout (k : ScheduledKey) (s : State) : (finishKey k s).dout = s.dout := rfl
@[simp] theorem finishKey_sk (k : ScheduledKey) (s : State) : (finishKey k s).sk = k := rfl
@[simp] theorem finishKey_done (k : ScheduledKey) (s : State) : (finishKey k s).done = true := rfl
@[simp] theorem finishKey_skValid (k : ScheduledKey) (s : State) : (finishKey k s).skValid = true := rfl
@[simp] theorem finishKey_busyErr (k : ScheduledKey) (s : State) : (finishKey k s).busyErr = s.busyErr := rfl
@[simp] theorem finishKey_keyValid (k : ScheduledKey) (s : State) : (finishKey k s).keyValid = s.keyValid := rfl
@[simp] theorem finishKey_dinValid (k : ScheduledKey) (s : State) : (finishKey k s).dinValid = s.dinValid := rfl
@[simp] theorem finishKey_err (k : ScheduledKey) (s : State) : (finishKey k s).err = s.err := rfl
@[simp] theorem finishKey_inflight (k : ScheduledKey) (s : State) : (finishKey k s).inflight = none := rfl
@[simp] theorem finishKey_rdata (k : ScheduledKey) (s : State) : (finishKey k s).rdata = s.rdata := rfl
@[simp] theorem finishKey_draws (k : ScheduledKey) (s : State) : (finishKey k s).draws = s.draws := rfl
@[simp] theorem finishKey_port (k : ScheduledKey) (s : State) : (finishKey k s).port = s.port := rfl
@[simp] theorem finishKey_busy (k : ScheduledKey) (s : State) : (finishKey k s).busy = false := rfl

end finishKey

section resetBlock

@[simp] theorem resetBlock_key (s : State) : (resetBlock s).key = Reg.zero := rfl
@[simp] theorem resetBlock_din (s : State) : (resetBlock s).din = Reg.zero := rfl
@[simp] theorem resetBlock_dout (s : State) : (resetBlock s).dout = Reg.zero := rfl
@[simp] theorem resetBlock_sk (s : State) : (resetBlock s).sk = ScheduledKey.zero := rfl
@[simp] theorem resetBlock_done (s : State) : (resetBlock s).done = false := rfl
@[simp] theorem resetBlock_skValid (s : State) : (resetBlock s).skValid = false := rfl
@[simp] theorem resetBlock_busyErr (s : State) : (resetBlock s).busyErr = false := rfl
@[simp] theorem resetBlock_keyValid (s : State) : (resetBlock s).keyValid = 0#4 := rfl
@[simp] theorem resetBlock_dinValid (s : State) : (resetBlock s).dinValid = 0#4 := rfl
@[simp] theorem resetBlock_err (s : State) : (resetBlock s).err = .ok := rfl
@[simp] theorem resetBlock_inflight (s : State) : (resetBlock s).inflight = none := rfl
@[simp] theorem resetBlock_rdata (s : State) : (resetBlock s).rdata = s.rdata := rfl
@[simp] theorem resetBlock_draws (s : State) : (resetBlock s).draws = s.draws := rfl
@[simp] theorem resetBlock_port (s : State) : (resetBlock s).port = s.port := rfl
@[simp] theorem resetBlock_busy (s : State) : (resetBlock s).busy = false := rfl

end resetBlock

section commandNop

@[simp] theorem commandNop_key (s : State) : (commandNop s).key = s.key := rfl
@[simp] theorem commandNop_din (s : State) : (commandNop s).din = s.din := rfl
@[simp] theorem commandNop_dout (s : State) : (commandNop s).dout = s.dout := rfl
@[simp] theorem commandNop_sk (s : State) : (commandNop s).sk = s.sk := rfl
@[simp] theorem commandNop_done (s : State) : (commandNop s).done = true := rfl
@[simp] theorem commandNop_skValid (s : State) : (commandNop s).skValid = s.skValid := rfl
@[simp] theorem commandNop_busyErr (s : State) : (commandNop s).busyErr = false := rfl
@[simp] theorem commandNop_keyValid (s : State) : (commandNop s).keyValid = s.keyValid := rfl
@[simp] theorem commandNop_dinValid (s : State) : (commandNop s).dinValid = s.dinValid := rfl
@[simp] theorem commandNop_err (s : State) : (commandNop s).err = .ok := rfl
@[simp] theorem commandNop_inflight (s : State) : (commandNop s).inflight = s.inflight := rfl
@[simp] theorem commandNop_rdata (s : State) : (commandNop s).rdata = s.rdata := rfl
@[simp] theorem commandNop_draws (s : State) : (commandNop s).draws = s.draws := rfl
@[simp] theorem commandNop_port (s : State) : (commandNop s).port = s.port := rfl
@[simp] theorem commandNop_busy (s : State) : (commandNop s).busy = s.busy := rfl

end commandNop

section commandClear

@[simp] theorem commandClear_key (s : State) : (commandClear s).key = Reg.zero := rfl
@[simp] theorem commandClear_din (s : State) : (commandClear s).din = Reg.zero := rfl
@[simp] theorem commandClear_dout (s : State) : (commandClear s).dout = Reg.zero := rfl
@[simp] theorem commandClear_sk (s : State) : (commandClear s).sk = ScheduledKey.zero := rfl
@[simp] theorem commandClear_done (s : State) : (commandClear s).done = true := rfl
@[simp] theorem commandClear_skValid (s : State) : (commandClear s).skValid = false := rfl
@[simp] theorem commandClear_busyErr (s : State) : (commandClear s).busyErr = false := rfl
@[simp] theorem commandClear_keyValid (s : State) : (commandClear s).keyValid = 0#4 := rfl
@[simp] theorem commandClear_dinValid (s : State) : (commandClear s).dinValid = 0#4 := rfl
@[simp] theorem commandClear_err (s : State) : (commandClear s).err = .ok := rfl
@[simp] theorem commandClear_inflight (s : State) : (commandClear s).inflight = none := rfl
@[simp] theorem commandClear_rdata (s : State) : (commandClear s).rdata = s.rdata := rfl
@[simp] theorem commandClear_draws (s : State) : (commandClear s).draws = s.draws := rfl
@[simp] theorem commandClear_port (s : State) : (commandClear s).port = s.port := rfl
@[simp] theorem commandClear_busy (s : State) : (commandClear s).busy = false := rfl

end commandClear

section sampleEdge

@[simp] theorem sampleEdge_key (s : State) : (sampleEdge s).key = s.key := rfl
@[simp] theorem sampleEdge_din (s : State) : (sampleEdge s).din = s.din := rfl
@[simp] theorem sampleEdge_dout (s : State) : (sampleEdge s).dout = s.dout := rfl
@[simp] theorem sampleEdge_sk (s : State) : (sampleEdge s).sk = s.sk := rfl
@[simp] theorem sampleEdge_done (s : State) : (sampleEdge s).done = s.done := rfl
@[simp] theorem sampleEdge_skValid (s : State) : (sampleEdge s).skValid = s.skValid := rfl
@[simp] theorem sampleEdge_busyErr (s : State) : (sampleEdge s).busyErr = s.busyErr := rfl
@[simp] theorem sampleEdge_keyValid (s : State) : (sampleEdge s).keyValid = s.keyValid := rfl
@[simp] theorem sampleEdge_dinValid (s : State) : (sampleEdge s).dinValid = s.dinValid := rfl
@[simp] theorem sampleEdge_err (s : State) : (sampleEdge s).err = s.err := rfl
@[simp] theorem sampleEdge_inflight (s : State) : (sampleEdge s).inflight = s.inflight := rfl
@[simp] theorem sampleEdge_rdata (s : State) : (sampleEdge s).rdata = Config.freeWord s.draws := rfl
@[simp] theorem sampleEdge_draws (s : State) : (sampleEdge s).draws = s.draws + 1 := rfl
@[simp] theorem sampleEdge_port (s : State) : (sampleEdge s).port = s.port.tail := rfl
@[simp] theorem sampleEdge_busy (s : State) : (sampleEdge s).busy = s.busy := rfl

end sampleEdge

section presentForm

@[simp] theorem presentForm_key (f : Form) (s : State) : (presentForm f s).key = s.key := rfl
@[simp] theorem presentForm_din (f : Form) (s : State) : (presentForm f s).din = s.din := rfl
@[simp] theorem presentForm_dout (f : Form) (s : State) : (presentForm f s).dout = s.dout := rfl
@[simp] theorem presentForm_sk (f : Form) (s : State) : (presentForm f s).sk = s.sk := rfl
@[simp] theorem presentForm_done (f : Form) (s : State) : (presentForm f s).done = s.done := rfl
@[simp] theorem presentForm_skValid (f : Form) (s : State) : (presentForm f s).skValid = s.skValid := rfl
@[simp] theorem presentForm_busyErr (f : Form) (s : State) : (presentForm f s).busyErr = s.busyErr := rfl
@[simp] theorem presentForm_keyValid (f : Form) (s : State) : (presentForm f s).keyValid = s.keyValid := rfl
@[simp] theorem presentForm_dinValid (f : Form) (s : State) : (presentForm f s).dinValid = s.dinValid := rfl
@[simp] theorem presentForm_err (f : Form) (s : State) : (presentForm f s).err = s.err := rfl
@[simp] theorem presentForm_inflight (f : Form) (s : State) : (presentForm f s).inflight = s.inflight := rfl
@[simp] theorem presentForm_rdata (f : Form) (s : State) : (presentForm f s).rdata = s.rdata := rfl
@[simp] theorem presentForm_draws (f : Form) (s : State) : (presentForm f s).draws = s.draws := rfl
@[simp] theorem presentForm_port (f : Form) (s : State) : (presentForm f s).port = ⟨false, some (presented f), false⟩ :: s.port := rfl
@[simp] theorem presentForm_busy (f : Form) (s : State) : (presentForm f s).busy = s.busy := rfl

end presentForm

end Sys2Proof.Machine
end

