-- ==== Sys2Proof/Laws/Step.lean ====
section
/-! SUPPORT. What an instruction and a clock edge can do to the state, each said once. -/

namespace Sys2Proof.Machine

/-- The state an instruction leaves: every meaning answers one. -/
def effect (i : Instr) (s : State) : State :=
  match i with
  | .hread r => if s.busy && (hostReg r).isResult then driveFree s else driveRead (s.readReg (hostReg r)) s
  | .hwrite r d => writeReg (hostReg r) d s
  | .nop => unlessBusy commandNop s
  | .evolve rule gen => unlessBusy (commandEvolve rule gen) s
  | .keysched => unlessBusy commandKeysched s
  | .encrypt => unlessBusy commandEncrypt s
  | .decrypt => unlessBusy commandDecrypt s
  | .clear => unlessBusy commandClear s

theorem exec_eq_effect (i : Instr) (s : State) : exec i s = .next (effect i s) := by
  cases i <;> rfl

theorem exec_next {i : Instr} {s t : State} (h : exec i s = .next t) : t = effect i s := by
  rw [exec_eq_effect] at h
  exact (Host.Outcome.next.inj h).symm

/-- Everything one transaction can do. -/
inductive TransactionEffect (s : State) : State → Prop
  /-- HREAD with a specified value (R171). -/
  | readValue (v : Word64) : TransactionEffect s (driveRead v s)
  /-- HREAD of DOUT or SK while BUSY = 1 (R224). -/
  | readFree (hb : s.busy = true) : TransactionEffect s (driveFree s)
  /-- A write to a read-only or reserved index (R170). -/
  | dropped : TransactionEffect s s
  /-- A write to CMD, KEY or DIN while BUSY = 1 (R206). -/
  | lost (hb : s.busy = true) : TransactionEffect s (loseWrite s)
  /-- A write to KEY (R22). -/
  | key (m : BitVec 2) (d : Word64) (hb : s.busy = false) : TransactionEffect s (storeKey m d s)
  /-- A write to DIN (R23). -/
  | din (m : BitVec 2) (d : Word64) (hb : s.busy = false) : TransactionEffect s (storeDin m d s)
  /-- A command rejected (R200). -/
  | rejected (e : ErrCode) (hb : s.busy = false) (he : e ≠ .ok) (ha : e ≠ .allocationFailure) :
      TransactionEffect s (raiseError e s)
  /-- EVOLVE accepted (R108). -/
  | evolve (rule : BitVec 8) (gen : BitVec 32) (hb : s.busy = false) (hv : s.dinValid = allValid) :
      TransactionEffect s (accept (.evolve s.din rule gen) s)
  /-- KEYSCHED accepted (R125). -/
  | keysched (hb : s.busy = false) (hv : s.keyValid = allValid) :
      TransactionEffect s (accept (.keysched s.key) s)
  /-- ENCRYPT accepted (R151). -/
  | encrypt (hb : s.busy = false) (hv : s.dinValid = allValid) (hk : s.skValid = true) :
      TransactionEffect s (accept (.encrypt s.din) s)
  /-- DECRYPT accepted (R152). -/
  | decrypt (hb : s.busy = false) (hv : s.dinValid = allValid) (hk : s.skValid = true) :
      TransactionEffect s (accept (.decrypt s.din) s)
  /-- NOP (R173). -/
  | nop (hb : s.busy = false) : TransactionEffect s (commandNop s)
  /-- CLEAR (R174). -/
  | clear (hb : s.busy = false) : TransactionEffect s (commandClear s)

@[simp] theorem unlessBusy_of_idle (f : State → State) {s : State} (h : s.busy = false) :
    unlessBusy f s = f s := by
  simp [unlessBusy, h]

@[simp] theorem unlessBusy_of_busy (f : State → State) {s : State} (h : s.busy = true) :
    unlessBusy f s = loseWrite s := by
  simp [unlessBusy, h]

theorem unlessBusy_cases {f : State → State} {s : State}
    (h : s.busy = false → TransactionEffect s (f s)) : TransactionEffect s (unlessBusy f s) := by
  unfold unlessBusy
  split
  · next hb => exact .lost hb
  · next hb => exact h (by simpa using hb)

theorem runCommand_cases (c : Command) {s : State} (hb : s.busy = false) :
    TransactionEffect s (runCommand c s) := by
  have reject : ∀ e, e ≠ .ok → e ≠ .allocationFailure → TransactionEffect s (raiseError e s) :=
    fun e he ha => .rejected e hb he ha
  cases c with
  | nop => exact .nop hb
  | clear => exact .clear hb
  | evolve rule gen =>
    simp only [runCommand, commandEvolve]
    split
    · next hv => exact .evolve rule gen hb hv
    · exact reject _ (by decide) (by decide)
  | keysched =>
    simp only [runCommand, commandKeysched]
    split
    · next hv => exact .keysched hb hv
    · exact reject _ (by decide) (by decide)
  | encrypt =>
    simp only [runCommand, commandEncrypt, commandCipher]
    split
    · next hv =>
      split
      · next hk => exact .encrypt hb hv hk
      · exact reject _ (by decide) (by decide)
    · exact reject _ (by decide) (by decide)
  | decrypt =>
    simp only [runCommand, commandDecrypt, commandCipher]
    split
    · next hv =>
      split
      · next hk => exact .decrypt hb hv hk
      · exact reject _ (by decide) (by decide)
    · exact reject _ (by decide) (by decide)

theorem commandWord_cases (w : Word64) {s : State} (hb : s.busy = false) :
    TransactionEffect s (commandWord w s) := by
  unfold commandWord
  split
  · exact runCommand_cases _ hb
  · exact .rejected _ hb (by decide) (by decide)

/-- One transaction does one of the things of `TransactionEffect`. -/
theorem effect_cases (i : Instr) (s : State) : TransactionEffect s (effect i s) := by
  cases i with
  | hread r =>
    simp only [effect]
    split
    · next h => exact .readFree (by simp at h; exact h.1)
    · exact .readValue _
  | hwrite r d =>
    simp only [effect]
    cases hostReg r with
    | cmd => exact unlessBusy_cases (commandWord_cases d)
    | key m => exact unlessBusy_cases fun hb => .key m d hb
    | din m => exact unlessBusy_cases fun hb => .din m d hb
    | status => exact .dropped
    | reserved => exact .dropped
    | dout m => exact .dropped
    | sk j m => exact .dropped
  | nop => exact unlessBusy_cases fun hb => .nop hb
  | clear => exact unlessBusy_cases fun hb => .clear hb
  | evolve rule gen => exact unlessBusy_cases (runCommand_cases (.evolve rule gen))
  | keysched => exact unlessBusy_cases (runCommand_cases .keysched)
  | encrypt => exact unlessBusy_cases (runCommand_cases .encrypt)
  | decrypt => exact unlessBusy_cases (runCommand_cases .decrypt)

/-- The state after the coming edge. -/
def nextState (s : State) : State :=
  if s.edge.rst then resetBlock (sampleEdge s)
  else
    match s.fetch with
    | none => engineTurn s (sampleEdge s)
    | some i => engineTurn s (effect i (sampleEdge s))

theorem step_eq_nextState (s : State) : step s = .next (nextState s) := by
  unfold step nextState
  split
  · rfl
  · cases s.fetch with
    | none => rfl
    | some i => simp only [exec_eq_effect]

theorem step_next {s t : State} (h : step s = .next t) : t = nextState s := by
  rw [step_eq_nextState] at h
  exact (Host.Outcome.next.inj h).symm

/-- The completion step while a command is in flight. -/
inductive CompletionEffect (s : State) : State → Prop
  | evolve (x : Reg) (rule : BitVec 8) (gen : BitVec 32) (h : s.inflight = some (.evolve x rule gen)) :
      CompletionEffect s (finishBlock (evolveResult x rule gen) s)
  | keysched (k : Reg) (h : s.inflight = some (.keysched k)) : CompletionEffect s (finishKey (derive k) s)
  | encrypt (p : Reg) (h : s.inflight = some (.encrypt p)) :
      CompletionEffect s (finishBlock (encryptBlock s.sk p) s)
  | decrypt (c : Reg) (h : s.inflight = some (.decrypt c)) :
      CompletionEffect s (finishBlock (decryptBlock s.sk c) s)

theorem busy_iff_inflight (s : State) : s.busy = true ↔ ∃ c, s.inflight = some c := by
  simp [State.busy, Option.isSome_iff_exists]

theorem not_busy_iff (s : State) : s.busy = false ↔ s.inflight = none := by
  simp [State.busy]

theorem completionStep_cases {s : State} (hb : s.busy = true) : CompletionEffect s (completionStep s) := by
  obtain ⟨c, hc⟩ := (busy_iff_inflight s).mp hb
  unfold completionStep
  cases c with
  | evolve x rule gen => simp only [hc]; exact .evolve x rule gen hc
  | keysched k => simp only [hc]; exact .keysched k hc
  | encrypt p => simp only [hc]; exact .encrypt p hc
  | decrypt c => simp only [hc]; exact .decrypt c hc

/-- Everything a clock edge can do: reset; or a transaction, or none; and then a completion or none. -/
inductive EdgeEffect (s : State) : State → Prop
  | reset (hr : s.edge.rst = true) : EdgeEffect s (resetBlock (sampleEdge s))
  | quiet (hr : s.edge.rst = false) (hf : s.fetch = none) (hc : (s.edge.completes && s.busy) = false) :
      EdgeEffect s (sampleEdge s)
  | transaction (i : Instr) (hr : s.edge.rst = false) (hf : s.fetch = some i)
      (hc : (s.edge.completes && s.busy) = false) : EdgeEffect s (effect i (sampleEdge s))
  | completion (hr : s.edge.rst = false) (hf : s.fetch = none) (hc : s.edge.completes = true)
      (hb : s.busy = true) : EdgeEffect s (completionStep (sampleEdge s))
  | transactionThenCompletion (i : Instr) (hr : s.edge.rst = false) (hf : s.fetch = some i)
      (hc : s.edge.completes = true) (hb : s.busy = true) :
      EdgeEffect s (completionStep (effect i (sampleEdge s)))

/-- One step does one of the things of `EdgeEffect`. -/
theorem step_cases {s t : State} (h : step s = .next t) : EdgeEffect s t := by
  rw [step_next h]
  unfold nextState engineTurn
  by_cases hr : s.edge.rst = true
  · rw [if_pos hr]; exact .reset hr
  · rw [if_neg hr]
    have hr' : s.edge.rst = false := by simpa using hr
    by_cases hc : (s.edge.completes && s.busy) = true
    · have hc' := hc
      simp only [Bool.and_eq_true] at hc'
      cases hf : s.fetch with
      | none => simp only [hc, if_true]; exact .completion hr' hf hc'.1 hc'.2
      | some i => simp only [hc, if_true]; exact .transactionThenCompletion i hr' hf hc'.1 hc'.2
    · have hc' : (s.edge.completes && s.busy) = false := by simpa using hc
      cases hf : s.fetch with
      | none => simp only [hc', Bool.false_eq_true, if_false]; exact .quiet hr' hf hc'
      | some i => simp only [hc', Bool.false_eq_true, if_false]; exact .transaction i hr' hf hc'

/-- A transaction never takes a command out of flight. -/
theorem effect_keeps_inflight (i : Instr) {s : State} (hb : s.busy = true) :
    (effect i s).inflight = s.inflight := by
  have h := effect_cases i s
  generalize effect i s = t at h
  cases h <;> simp_all

theorem effect_keeps_busy (i : Instr) {s : State} (hb : s.busy = true) : (effect i s).busy = true := by
  unfold State.busy; rw [effect_keeps_inflight i hb]; exact hb

/-- A run of one step more is a run from the state after the first step. -/
theorem core_run_succ (k : Nat) (s : State) :
    Sys2Proof.core.run (k + 1) s = Sys2Proof.core.run k (nextState s) := by
  have run_succ : ∀ (M : Host.Core) (s t : M.State), M.step s = .next t →
      M.run (k + 1) s = M.run k t := fun M s t h => by rw [Host.Core.run, h]
  exact run_succ Sys2Proof.core s (nextState s) (step_eq_nextState s)

/-- Every edge takes one entry from the schedule. -/
theorem nextState_port (s : State) : (nextState s).port = s.port.tail := by
  have h := step_cases (step_eq_nextState s)
  generalize nextState s = t at h
  have hc : ∀ u v, CompletionEffect u v → v.port = u.port := by intro u v h; cases h <;> rfl
  have ht : ∀ u v, TransactionEffect u v → v.port = u.port := by intro u v h; cases h <;> simp
  cases h with
  | reset => rfl
  | quiet => rfl
  | transaction i => exact ht _ _ (effect_cases _ _)
  | completion _ _ _ hb => exact hc _ _ (completionStep_cases (by simpa using hb))
  | transactionThenCompletion i _ _ _ hb =>
    exact (hc _ _ (completionStep_cases (effect_keeps_busy _ (by simpa using hb)))).trans
      (ht _ _ (effect_cases _ _))

end Sys2Proof.Machine
end

