-- ==== Sys2Proof/Tests/Slice0.lean ====
section
/-! SUPPORT. The model's own tests, with expected results from spec/95_test_vectors.md and the encoding
tables, and for every statement with hypotheses a witness that meets them. -/

namespace Sys2Proof.Tests

open Sys2Proof.Machine Sys2Proof.Safety

/-! ## Well-formed terms -/

/-- The raw write of a command's word to CMD is the one ill-formed spelling: KEYSCHED, NOP, EVOLVE. -/
theorem test_raw_command_words_are_ill_formed :
    (Instr.hwrite 0x00#5 0x0000000000000002#64).wellFormed = false ∧
    (Instr.hwrite 0x00#5 0#64).wellFormed = false ∧
    (Instr.hwrite 0x00#5 0x0000FFFFFFFFFF01#64).wellFormed = false := by decide

/-- An illegal word on CMD, and a legal word on another index, are well formed. -/
theorem test_other_writes_are_well_formed :
    (Instr.hwrite 0x00#5 0x0000000000000006#64).wellFormed = true ∧
    (Instr.hwrite 0x04#5 0x0000000000000002#64).wellFormed = true := by decide

/-! ## Decoding: words written from R71 to R75, and V-D1 to V-D10 -/

theorem test_decode_hread : decode (.ht 0b000001#6 0#64) = .ok (.hread 0x01#5) ∧
    decode (.ht 0b011111#6 0#64) = .ok (.hread 0x1F#5) := by decide

theorem test_decode_hwrite :
    decode (.ht 0b100100#6 0xa59535d07e192f12#64) = .ok (.hwrite 0x04#5 0xa59535d07e192f12#64) ∧
    decode (.ht 0b100000#6 6#64) = .ok (.hwrite 0x00#5 6#64) := by decide

theorem test_decode_nop : decode (.cw
    0b0000000000000000000000000000000000000000000000000000000000000000#64) = .ok .nop := by decide

theorem test_decode_evolve : decode (.cw
    0b0000000000000000000000000000000011111111000000010001111000000001#64)
      = .ok (.evolve 0x1E#8 0xFF01#32) := by decide

theorem test_decode_keysched : decode (.cw
    0b0000000000000000000000000000000000000000000000000000000000000010#64) = .ok .keysched := by decide

theorem test_decode_encrypt : decode (.cw
    0b0000000000000000000000000000000000000000000000000000000000000011#64) = .ok .encrypt := by decide

theorem test_decode_decrypt : decode (.cw
    0b0000000000000000000000000000000000000000000000000000000000000100#64) = .ok .decrypt := by decide

theorem test_decode_clear : decode (.cw
    0b0000000000000000000000000000000000000000000000000000000000000101#64) = .ok .clear := by decide

/-- V-D9, V-D10 and a non-zero field of KEYSCHED: refused by name. -/
theorem test_decode_illegal :
    decode (.cw 0x0000000000000006#64) = .error .reservedOpcode ∧
    decode (.cw 0x000000000000000F#64) = .error .reservedOpcode ∧
    decode (.cw 0x0000000000000010#64) = .error .nonzeroRsv0 ∧
    decode (.cw 0x8000000000000000#64) = .error .nonzeroRsv1 ∧
    decode (.cw 0x0000800000000002#64) = .error .nonzeroField := by decide

/-- The table's words: 6-bit headers in a byte, 64-bit command words, nothing else. -/
theorem test_decode_table_words :
    decodeTableWord 8 0x1F = some (.hread 0x1F#5) ∧ decodeTableWord 8 0x24 = some (.hwrite 0x04#5 0#64) ∧
    decodeTableWord 8 0x40 = none ∧ decodeTableWord 64 5 = some .clear ∧
    decodeTableWord 64 0x0000000000011E01 = some (.evolve 0x1E#8 1#32) ∧
    decodeTableWord 64 6 = none ∧ decodeTableWord 32 2 = none := by decide

/-! ## States the tests and witnesses start from -/

/-- The golden key words (R53). -/
def goldenKey : Reg := ⟨0xa59535d07e192f12#64, 0x82734fb3084c5e05#64, 0x385b8a038d28e669#64, 0xd2bc44a82c395d8e#64⟩

/-- The golden plaintext (R53). -/
def goldenBlock : Reg := ⟨0x0101010101010101#64, 0x0202020202020202#64, 0x0303030303030303#64, 0x0404040404040404#64⟩

/-- The register T of vectors V-E7 to V-E13. -/
def vectorT : Reg := ⟨0x0123456789abcdef#64, 0xfedcba9876543210#64, 0x0f0f0f0f0f0f0f0f#64, 0x8000000000000001#64⟩

/-- Quiescent, both operands valid, a ScheduledKey present (that of the zero key, by name). -/
def ready : State :=
  { State.reset with
    key := goldenKey, keyValid := 0b1111#4, din := goldenBlock, dinValid := 0b1111#4,
    sk := derive Reg.zero, skValid := true, done := true }

/-- The block while the command `c` is in flight, with `p` on its port. -/
def running (c : InFlight) (p : List ClockEdge) : State :=
  { State.reset with inflight := some c, din := goldenBlock, key := goldenKey, port := p }

/-- An edge that carries the transaction `t`, at which the engine completes if `b`. -/
def edgeOf (t : Transaction) (b : Bool) : ClockEdge := ⟨false, some t, b⟩

/-- What a step or an instruction leaves, and `d` where it does not answer a next state. -/
def after (o : Host.Outcome State Fault Refusal) (d : State) : State :=
  match o with
  | .next t => t
  | .fault _ => d
  | .refused _ => d

/-! ## Instructions: one step each -/

/-- V-H4's STATUS word, read through HREAD. -/
theorem test_hread_status : (after (exec (.hread 0x01#5)
    { State.reset with done := true, keyValid := 0b1111#4, dinValid := 0b1111#4, err := .invalidLength })
      State.reset).rdata = 0x0000000000001ff2#64 := by decide

/-- SK4_3 is word index 0x1F (R35). -/
theorem test_hread_last_subkey_word : (after (exec (.hread 0x1F#5)
    { State.reset with sk := ⟨Reg.zero, Reg.zero, Reg.zero, goldenKey⟩ }) State.reset).rdata
      = 0xd2bc44a82c395d8e#64 := by decide

/-- V-H2. -/
theorem test_hwrite_din2 :
    (after (exec (.hwrite 0x0A#5 0x0303030303030303#64) State.reset) State.reset).statusWord
      = 0x0000000000000400#64 := by decide

/-- V-H12. -/
theorem test_hwrite_while_busy :
    let t := after (exec (.hwrite 0x08#5 5#64) (running (.keysched goldenKey) [])) State.reset
    t.din = goldenBlock ∧ t.statusWord = 0x0000000000000009#64 := by decide

/-- V-H5. -/
theorem test_nop_acknowledges : (after (exec .nop { State.reset with err := .noKey, busyErr := true })
    State.reset).statusWord = 0x0000000000000002#64 := by decide

/-- V-H16. -/
theorem test_evolve_accepted : (after (exec (.evolve 0x1E#8 1#32)
    { State.reset with err := .illegalCmd, done := true, dinValid := 0b1111#4 }) State.reset).statusWord
      = 0x0000000000000001#64 := by decide

/-- V-H7. -/
theorem test_keysched_wants_all_words : (after (exec .keysched
    { State.reset with keyValid := 0b0011#4, dinValid := 0b1111#4, done := true }) State.reset).statusWord
      = 0x0000000000001f32#64 := by decide

/-- P2 line 2: KEYSCHED accepted. -/
theorem test_keysched_accepted :
    (after (exec .keysched { State.reset with keyValid := 0b1111#4 }) State.reset).statusWord
      = 0x0000000000000001#64 := by decide

/-- V-H6. -/
theorem test_encrypt_from_reset :
    (after (exec .encrypt State.reset) State.reset).statusWord = 0x0000000000001002#64 := by decide

/-- V-H8. -/
theorem test_encrypt_without_key : (after (exec .encrypt
    { State.reset with dinValid := 0b1111#4 }) State.reset).statusWord = 0x0000000000003f02#64 := by decide

/-- P2 line 9: DECRYPT accepted. -/
theorem test_decrypt_accepted : (after (exec .decrypt
    { State.reset with dinValid := 0b1111#4, skValid := true, done := true }) State.reset).statusWord
      = 0x0000000000000005#64 := by decide

/-- V-H13. -/
theorem test_clear_while_busy :
    let t := after (exec .clear (running (.keysched goldenKey) [])) State.reset
    t.statusWord = 0x0000000000000009#64 ∧ t.inflight = some (.keysched goldenKey) := by decide

/-- V-H15. -/
theorem test_clear : (after (exec .clear
    { State.reset with key := goldenKey, keyValid := 0b0101#4, busyErr := true, skValid := true })
      State.reset).statusWord = 0x0000000000000002#64 := by decide

/-- V-H9 and V-H10: an illegal word, whatever the valid bits. -/
theorem test_illegal_words :
    (after (exec (.hwrite 0x00#5 0x6#64) { State.reset with dinValid := 0b1111#4 }) State.reset).statusWord
      = 0x0000000000004f02#64 ∧
    (after (exec (.hwrite 0x00#5 0x102#64) { State.reset with dinValid := 0b1111#4 }) State.reset).statusWord
      = 0x0000000000004f02#64 := by decide

/-! ## The rule engine, the key scheduler, the round function -/

/-- V-E1, V-E2, V-E6: one cell at a limb boundary, one generation of rule 30. -/
theorem test_boundary_cells :
    evolveResult ⟨0x8000000000000000#64, 0#64, 0#64, 0#64⟩ 0x1E#8 1#32
      = ⟨0xc000000000000000#64, 0#64, 0#64, 1#64⟩ ∧
    evolveResult ⟨1#64, 0#64, 0#64, 0#64⟩ 0x1E#8 1#32 = ⟨3#64, 0x8000000000000000#64, 0#64, 0#64⟩ ∧
    evolveResult ⟨0#64, 0#64, 0#64, 1#64⟩ 0x1E#8 1#32
      = ⟨0x8000000000000000#64, 0#64, 0#64, 3#64⟩ := by decide +kernel

/-- V-E10, V-E10c, V-E10d: rule tables that are not symmetric. -/
theorem test_rule_tables :
    evolveResult vectorT 0xF0#8 1#32 = ⟨0x8091a2b3c4d5e6f7#64, 0xff6e5d4c3b2a1908#64,
      0x0787878787878787#64, 0xc000000000000000#64⟩ ∧
    evolveResult vectorT 0x5A#8 1#32 = ⟨0x82d7287cd7827d28#64, 0x02d7287cd7827d28#64,
      0x1999999999999998#64, 0xc000000000000002#64⟩ ∧
    evolveResult vectorT 0x96#8 1#32 = ⟨0x83f46d1b5e29b0c7#64, 0xfc0b92e4a1d64f38#64,
      0x1696969696969697#64, 0x4000000000000003#64⟩ := by decide +kernel

/-- V-E12 and V-E13. -/
theorem test_generations :
    evolveResult vectorT 0x1E#8 2#32 = ⟨0x4605c952d0eb679c#64, 0x01fe3687ad15c8e4#64,
      0x35f5f5f5f5f5f5f4#64, 0xe000000000000006#64⟩ ∧
    evolveResult vectorT 0x1E#8 255#32 = ⟨0x805d673a80ecfecf#64, 0xc740ceacab11e6ee#64,
      0xc0fd167c96980feb#64, 0x411283563ea2cc50#64⟩ := by decide +kernel

/-- V-K3, the mixing vectors of a key whose products and sums wrap. -/
theorem test_mixing_vectors :
    let k : Reg := ⟨0#64, 1#64, 0xffffffffffffffff#64, 0x8000000000000000#64⟩
    mixingVector k 1#2 = ⟨0#64, 1#64, 0xfffffffffffffffe#64, 0#64⟩ ∧
    mixingVector k 3#2 = ⟨0#64, 0x8000000000000001#64, 0x7fffffffffffffff#64, 0x8000000000000000#64⟩ := by
  decide +kernel

/-- V-K1, the first subkey of the golden key. -/
theorem test_golden_subkey : deriveSubkey goldenKey 0#2 = ⟨0x96a69968e1e99437#64, 0x06a343acc4626a25#64,
    0x426f5902b4c4523e#64, 0x631764c33b60a7c9#64⟩ := by decide +kernel

/-- V-F3, and with it step 1 of V-X1. -/
theorem test_first_step : stepLeft
    (0x96a69968e1e9943706a343acc4626a25426f5902b4c4523e631764c33b60a7c9#256) (splitBlock goldenBlock)
      = ⟨0x39735c21b0c738b97bd885c8be5b7313#128, 0x03030303030303030404040404040404#128⟩ := by decide +kernel

/-! ## Steps -/

/-- An edge that carries EVOLVE with a command in flight at completion time: the write is lost, the command
completes (R64), with V-E1's result. -/
theorem test_write_at_completion :
    let t := after (step (running (.evolve ⟨0x8000000000000000#64, 0#64, 0#64, 0#64⟩ 0x1E#8 1#32)
      [edgeOf (asmCommand (.evolve 0#8 0#32)) true])) State.reset
    t.dout = ⟨0xc000000000000000#64, 0#64, 0#64, 1#64⟩ ∧ t.statusWord = 0x000000000000000a#64 := by
  decide +kernel

/-- P5 line 3: reset abandons the command in flight. -/
theorem test_reset_abandons :
    let t := after (step (running (.evolve goldenBlock 0x1E#8 255#32) [⟨true, none, true⟩])) State.reset
    t.inflight = none ∧ t.dout = Reg.zero ∧ t.statusWord = 0#64 := by decide

/-- A table word placed at the coming edge is the instruction that runs. -/
theorem test_placed_words_run :
    (after (step (State.reset.withFetchWord 64 5)) State.reset).done = true ∧
    (after (step (State.reset.withFetchWord 8 0x2B)) State.reset).dinValid = 0b1000#4 ∧
    (after (step (State.reset.withFetchWord 64 3)) State.reset).err = .invalidLength := by decide

/-! ## Witnesses: the hypotheses of each statement, met together -/

theorem witness_EachCommandHasOneWord :
    decodeCommand 0x0000FFFFFFFFFF01#64 = .ok (.evolve 0xFF#8 0xFFFFFFFF#32) ∧
    decodeCommand 0x5#64 = .ok .clear := by decide

theorem witness_PortCarriesWellFormedInstructions :
    (Instr.hwrite 0x00#5 6#64).wellFormed = true ∧ (Instr.hread 0x1F#5).wellFormed = true ∧
    (Instr.evolve 0xFF#8 0#32).wellFormed = true := by decide

theorem witness_HreadReturnsTheRegister : ready.busy = false := by decide

theorem witness_BusyReadOfAResultIsUnspecified : (running (.encrypt goldenBlock) []).busy = true := by decide

/-- A read that repeats: the last index while quiescent, and the last index before DOUT while busy. -/
theorem witness_HreadHasNoSideEffect :
    (¬ (ready.busy = true ∧ 0x0C#5 ≤ 0x1F#5)) ∧
    ¬ ((running (.encrypt goldenBlock) []).busy = true ∧ 0x0C#5 ≤ 0x0B#5) := by decide

theorem witness_HwriteStoresKeyAndDinWords : State.reset.busy = false ∧ ready.busy = false := by decide

theorem witness_WrittenOperandWordsReadBack : ready.busy = false ∧ 3#2 ≠ 0#2 := by decide

theorem witness_BusyWriteOnlySetsBusyErr : (running (.decrypt goldenBlock) []).busy = true ∧
    (0x00#5 = 0x00#5 ∨ (0x04#5 ≤ 0x00#5 ∧ 0x00#5 ≤ 0x0B#5)) ∧
    (0x04#5 = 0x00#5 ∨ (0x04#5 ≤ 0x04#5 ∧ 0x04#5 ≤ 0x0B#5)) ∧
    (0x0B#5 = 0x00#5 ∨ (0x04#5 ≤ 0x0B#5 ∧ 0x0B#5 ≤ 0x0B#5)) := by decide

theorem witness_WritesToReadOnlyIndicesAreDropped : ∀ i : WordIndex,
    i ∈ [0x01#5, 0x03#5, 0x0C#5, 0x1F#5] → (0x01#5 ≤ i ∧ i ≤ 0x03#5) ∨ 0x0C#5 ≤ i := by decide

theorem witness_ReservedIndicesReadZeroAndIgnoreWrites :
    (0x02#5 = 0x02#5 ∨ 0x02#5 = 0x03#5) ∧ (0x03#5 = 0x02#5 ∨ 0x03#5 = 0x03#5) := by decide

/-- A word with OP = 0 that is not NOP, and both values of BUSY. -/
theorem witness_NopAcknowledgesErrors : (0x8000000000000000#64).extractLsb' 0 4 = 0#4 ∧
    0x8000000000000000#64 ≠ 0#64 ∧ (0x10#64).extractLsb' 0 4 = 0#4 ∧ 0x10#64 ≠ 0#64 ∧
    State.reset.busy = false ∧ (running (.keysched goldenKey) []).busy = true := by decide

theorem witness_ClearTakesResetValues :
    ready.busy = false ∧ (running (.keysched goldenKey) []).busy = true := by decide

theorem witness_EvolveIsAccepted : ready.busy = false ∧ ready.dinValid = 0b1111#4 := by decide

theorem witness_KeyschedIsAccepted : ready.busy = false ∧ ready.keyValid = 0b1111#4 := by decide

theorem witness_CipherCommandsAreAccepted :
    ready.busy = false ∧ ready.dinValid = 0b1111#4 ∧ ready.skValid = true := by decide

/-- No word and all but one word supplied. -/
theorem witness_MissingOperandWordsRaiseInvalidLength :
    State.reset.busy = false ∧ State.reset.keyValid ≠ 0b1111#4 ∧ State.reset.dinValid ≠ 0b1111#4 ∧
    (({ State.reset with keyValid := 0b0111#4, dinValid := 0b1110#4 } : State).busy = false) ∧
    (0b0111#4 ≠ 0b1111#4) ∧ (0b1110#4 ≠ 0b1111#4) := by decide

theorem witness_CipherWithoutScheduledKeyRaisesNoKey :
    let s : State := { ready with skValid := false }
    s.busy = false ∧ s.dinValid = 0b1111#4 ∧ s.skValid = false := by decide

/-- One word for each reason: the first and last reserved opcode, each reserved field, a field of KEYSCHED. -/
theorem witness_IllegalWordsRaiseIllegalCmd : State.reset.busy = false ∧
    0x6#4 ≤ (0x6#64).extractLsb' 0 4 ∧ 0x6#4 ≤ (0xF#64).extractLsb' 0 4 ∧
    (0x11#64).extractLsb' 4 4 ≠ 0#4 ∧ (0x8000000000000001#64).extractLsb' 48 16 ≠ 0#16 ∧
    (0x102#64).extractLsb' 0 4 ≠ 0x1#4 ∧ (0x102#64).extractLsb' 8 40 ≠ 0#40 := by decide

/-- Each case of the order: lost, illegal, both missing operands, no key, executed. -/
theorem witness_OneErrorIsReportedInPriorityOrder :
    (running (.keysched goldenKey) []).busy = true ∧
    (State.reset.busy = false ∧ legalWord 0x6#64 = false) ∧
    (legalWord 0x2#64 = true ∧ State.reset.keyValid ≠ 0b1111#4) ∧
    (legalWord 0x1#64 = true ∧ State.reset.dinValid ≠ 0b1111#4) ∧
    (legalWord 0x3#64 = true ∧ ready.dinValid = 0b1111#4 ∧ ({ ready with skValid := false } : State).skValid = false) ∧
    (legalWord 0x4#64 = true ∧ ready.busy = false ∧ ready.dinValid = 0b1111#4 ∧ ready.skValid = true) ∧
    (legalWord 0x0#64 = true ∧ legalWord 0x5#64 = true) := by decide

/-- An illegal word from reset, and an ENCRYPT from reset. -/
theorem witness_RaisingAnErrorChangesOnlyErrAndDone :
    (∃ t, State.reset.busy = false ∧ exec (.hwrite 0x00#5 0x6#64) State.reset = .next t ∧ t.err ≠ .ok) ∧
    (∃ t, exec .encrypt State.reset = .next t ∧ t.err ≠ .ok ∧ t.err ≠ State.reset.err) :=
  ⟨⟨_, by decide, rfl, by decide⟩, ⟨_, rfl, by decide, by decide⟩⟩

/-- KEYSCHED and EVOLVE accepted. -/
theorem witness_ConsumedOperandsMustBeWrittenAgain :
    (∃ t, ready.busy = false ∧ exec .keysched ready = .next t ∧ t.busy = true ∧
      ∃ k, t.inflight = some (.keysched k)) ∧
    (∃ t, exec (.evolve 0x1E#8 1#32) ready = .next t ∧ t.busy = true ∧
      ¬ ∃ k, t.inflight = some (.keysched k)) :=
  ⟨⟨_, by decide, rfl, rfl, ⟨_, rfl⟩⟩, ⟨_, rfl, rfl, (fun h => nomatch h)⟩⟩

theorem witness_GenerationFollowsTheCellRule : 0 < 256 ∧ 255 < 256 := by decide

theorem witness_GenerationThreadsLimbBoundaries : 0 < 64 ∧ 63 < 64 := by decide

/-- A register of period 2, one of equal halves, and a single cell at the first and at the last position. -/
theorem witness_RuleEngineObeysItsLaws :
    ((BitVec.ofNat 256 (2 ^ 256 / 3)).rotateRight 2 = BitVec.ofNat 256 (2 ^ 256 / 3)) ∧
    (hi128 (BitVec.ofNat 256 (2 ^ 128 + 1)) = lo128 (BitVec.ofNat 256 (2 ^ 128 + 1))) ∧
    (0 < 256 ∧ ∀ i, i < 256 → cell (BitVec.ofNat 256 (2 ^ 255)) i = decide (i = 0)) ∧
    (255 < 256 ∧ ∀ i, i < 256 → cell 1#256 i = decide (i = 255)) := by decide +kernel

theorem witness_MixingVectorFollowsItsFormula : (3#2 = 3#2) ∧ (0#2 ≠ 3#2) := by decide

/-- The weak keys: a word of all ones, a word whose square is 0, four words of all ones. -/
theorem witness_WeakKeysExpandByTheRules :
    ((⟨0#64, 1#64, 0xffffffffffffffff#64, 2#64⟩ : Reg).limb 2#2 = BitVec.allOnes 64 ∧ 3#2 ≠ 2#2) ∧
    (0x0000000100000000#64 * 0x0000000100000000#64 = 0#64) ∧
    (∀ m, (⟨BitVec.allOnes 64, BitVec.allOnes 64, BitVec.allOnes 64, BitVec.allOnes 64⟩ : Reg).limb m
      = BitVec.allOnes 64) ∧ 2#2 ≠ 3#2 := by decide

/-- The round function on the golden block's right half (V-F3) under a subkey of four limbs, and the halves
and output of an encryption and of a decryption. -/
theorem witness_CipherIsSixtyFourAlternatingSteps :
    (∃ w : Reg, w.val = evolve (⟨0x0303030303030303#64 ^^^ goldenKey.l0, 0x0404040404040404#64 ^^^ goldenKey.l1,
      0x0303030303030303#64 ^^^ goldenKey.l2, 0x0404040404040404#64 ^^^ goldenKey.l3⟩ : Reg).val 0x1E#8 255) ∧
    (∃ (o : Reg) (h h' : Halves), h = ⟨(goldenBlock.l0 ++ goldenBlock.l1 : BitVec (64 + 64)),
        (goldenBlock.l2 ++ goldenBlock.l3 : BitVec (64 + 64))⟩ ∧
      h' = cipherSteps ready.sk false 64 h ∧ o = encryptBlock ready.sk goldenBlock) ∧
    (∃ (o : Reg) (h h' : Halves), h = ⟨(goldenBlock.l0 ++ goldenBlock.l1 : BitVec (64 + 64)),
        (goldenBlock.l2 ++ goldenBlock.l3 : BitVec (64 + 64))⟩ ∧
      h' = cipherSteps ready.sk true 64 h ∧ o = decryptBlock ready.sk goldenBlock) :=
  ⟨⟨_, Reg.val_ofVal _⟩, ⟨_, _, _, rfl, rfl, rfl⟩, ⟨_, _, _, rfl, rfl, rfl⟩⟩

/-- A subkey of equal halves that is not zero, a ScheduledKey of four such, and the words 0 and 2^32. -/
theorem witness_EqualHalvesSubkeysOnlyExchangeHalves :
    let k : Reg := ⟨1#64, 2#64, 1#64, 2#64⟩
    (hi128 k.val = lo128 k.val) ∧
    (∀ j, hi128 ((⟨k, k, k, k⟩ : ScheduledKey).subkey j).val = lo128 ((⟨k, k, k, k⟩ : ScheduledKey).subkey j).val) ∧
    (0#64 = 0#64 ∨ 0#64 = 0x0000000100000000#64) ∧
    (0x0000000100000000#64 = 0#64 ∨ 0x0000000100000000#64 = 0x0000000100000000#64) := by decide

theorem witness_CompletionStepWritesTheResult :
    (running (.evolve goldenBlock 0x1E#8 0#32) []).inflight = some (.evolve goldenBlock 0x1E#8 0#32) ∧
    (running (.keysched goldenKey) []).inflight = some (.keysched goldenKey) ∧
    (running (.encrypt goldenBlock) []).inflight = some (.encrypt goldenBlock) ∧
    (running (.decrypt goldenBlock) []).inflight = some (.decrypt goldenBlock) := by decide

theorem witness_ZeroGenerationsCompleteWithTheInput : ready.busy = false ∧ ready.dinValid = 0b1111#4 := by decide

/-- The second state's block is what the first's command completes with, whatever that is. -/
theorem witness_BlockDecryptsWhatItEncrypted :
    ∃ t, exec .encrypt ready = .next t ∧
      let s' : State := { ready with din := (completionStep t).dout }
      ready.busy = false ∧ s'.busy = false ∧ ready.skValid = true ∧ s'.skValid = true ∧
      ready.dinValid = 0b1111#4 ∧ s'.dinValid = 0b1111#4 ∧ s'.sk = ready.sk ∧
      s'.din = (completionStep t).dout :=
  ⟨_, rfl, rfl, rfl, rfl, rfl, rfl, rfl, rfl, rfl⟩

/-- A command word and a write of an illegal word, presented at the coming edge. -/
theorem witness_StepRunsThePresentedInstruction :
    ((Instr.evolve 0x1E#8 1#32).wellFormed = true ∧
      (presentForm (encode (.evolve 0x1E#8 1#32)) ready).edge.rst = false ∧
      (presentForm (encode (.evolve 0x1E#8 1#32)) ready).edge.txn
        = some (presented (encode (.evolve 0x1E#8 1#32)))) ∧
    ((Instr.hwrite 0x00#5 6#64).wellFormed = true ∧
      (presentForm (encode (.hwrite 0x00#5 6#64)) ready).edge.rst = false ∧
      (presentForm (encode (.hwrite 0x00#5 6#64)) ready).edge.txn
        = some (presented (encode (.hwrite 0x00#5 6#64)))) := by decide

/-- An exhausted schedule, and an idle edge at which nothing completes. -/
theorem witness_IdleEdgeOnlyCompletes :
    (ready.edge.rst = false ∧ ready.edge.txn = none) ∧
    ((running (.keysched goldenKey) [⟨false, none, false⟩]).edge.rst = false ∧
      (running (.keysched goldenKey) [⟨false, none, false⟩]).edge.txn = none) := by decide

/-- A reset edge under a command in flight, and an edge without reset that completes one. -/
theorem witness_ResetEdgeGivesResetValues :
    (running (.keysched goldenKey) [⟨true, some (asmCommand .clear), true⟩]).edge.rst = true ∧
    ∃ t, (running (.keysched goldenKey) [restEdge]).inflight = some (.keysched goldenKey) ∧
      (running (.keysched goldenKey) [restEdge]).edge.rst = false ∧
      step (running (.keysched goldenKey) [restEdge]) = .next t :=
  ⟨by decide, _, by decide, by decide, rfl⟩

/-- Writes to CMD, KEY0 and DIN3, a read of STATUS at a completion, and a transaction under reset. -/
theorem witness_TransactionPrecedesCompletion :
    (∀ t : Transaction, t ∈ [asmCommand .nop, asmWrite (.key 0#2) 1#64, asmWrite (.din 3#2) 1#64] →
      (running (.keysched goldenKey) [edgeOf t true]).edge.txn = some t ∧
      (running (.keysched goldenKey) [edgeOf t true]).busy = true ∧
      (running (.keysched goldenKey) [edgeOf t true]).edge.rst = false ∧
      (running (.keysched goldenKey) [edgeOf t true]).edge.completes = true ∧ t.we = true ∧
      (t.widx = 0x00#5 ∨ (0x04#5 ≤ t.widx ∧ t.widx ≤ 0x0B#5))) ∧
    ((asmRead .status).we = false ∧ (asmRead .status).widx = 0x01#5) ∧
    (running (.keysched goldenKey) [⟨true, some (asmRead .status), true⟩]).edge.rst = true := by decide

theorem witness_BusyBlockKeepsItsState :
    let s := running (.encrypt goldenBlock) [edgeOf (asmCommand .clear) false]
    ∃ t, s.busy = true ∧ s.edge.rst = false ∧ s.edge.completes = false ∧ step s = .next t :=
  ⟨_, by decide, by decide, by decide, rfl⟩

/-- The SK file changed by reset, by a KEYSCHED completion and by CLEAR; and left alone by ENCRYPT. -/
theorem witness_OnlyKeyschedClearAndResetChangeTheSkFile :
    let sk : ScheduledKey := ⟨goldenKey, goldenKey, goldenKey, goldenKey⟩
    (∃ t, step { ready with sk := sk, port := [⟨true, none, false⟩] } = .next t ∧ t.sk ≠ sk) ∧
    (∃ t, step { running (.keysched goldenKey) [] with sk := sk } = .next t ∧ t.sk ≠ sk) ∧
    (∃ t, step { ready with sk := sk, port := [edgeOf (asmCommand .clear) false] } = .next t ∧ t.sk ≠ sk) ∧
    (∃ t, step { running (.encrypt goldenBlock) [] with sk := sk } = .next t ∧
      (running (.encrypt goldenBlock) []).edge.rst = false) ∧
    (∃ t, step { ready with sk := sk, port := [edgeOf (asmCommand .encrypt) false] } = .next t ∧
      State.fetch { ready with sk := sk, port := [edgeOf (asmCommand .encrypt) false] } = some .encrypt ∧
      ∀ k, ready.inflight ≠ some (.keysched k)) :=
  ⟨⟨_, rfl, by decide⟩, ⟨_, rfl, by decide +kernel⟩, ⟨_, rfl, by decide⟩, ⟨_, rfl, by decide⟩,
    ⟨_, rfl, by decide, fun k h => nomatch h⟩⟩

/-- DOUT changed by reset, by a completion and by CLEAR. -/
theorem witness_OnlyCompletionsClearAndResetChangeDout :
    (∃ t, step { ready with dout := goldenKey, port := [⟨true, none, false⟩] } = .next t ∧
      t.dout ≠ goldenKey) ∧
    (∃ t, step (running (.evolve goldenBlock 0x1E#8 0#32) []) = .next t ∧ t.dout ≠ Reg.zero) ∧
    (∃ t, step { ready with dout := goldenKey, port := [edgeOf (asmCommand .clear) false] } = .next t ∧
      t.dout ≠ goldenKey) :=
  ⟨⟨_, rfl, by decide⟩, ⟨_, rfl, by decide +kernel⟩, ⟨_, rfl, by decide⟩⟩

/-- BUSYERR cleared by NOP, set by a write to DIN3 while busy, and each read from its own side. -/
theorem witness_BusyErrIsSetAndClearedOnlyAsStated :
    (∃ t, step { ready with busyErr := true, port := [edgeOf (asmCommand .nop) false] } = .next t ∧
      t.busyErr = false) ∧
    (∃ t, step (running (.encrypt goldenBlock) [edgeOf (asmWrite (.din 3#2) 0#64) false]) = .next t ∧
      (running (.encrypt goldenBlock) []).busyErr = false ∧ t.busyErr = true) ∧
    (∃ t, step (running (.encrypt goldenBlock) [edgeOf (asmCommand .nop) true]) = .next t ∧
      (running (.encrypt goldenBlock) [edgeOf (asmCommand .nop) true]).edge.rst = false ∧
      (running (.encrypt goldenBlock) []).busy = true ∧
      (asmCommand .nop).we = true ∧ (asmCommand .nop).widx = 0x00#5) :=
  ⟨⟨_, rfl, rfl⟩, ⟨_, rfl, rfl, rfl⟩, ⟨_, rfl, rfl, rfl, rfl, rfl⟩⟩

/-- What an obedient host may do: read STATUS while busy, read the last SK word while quiescent, write the
first and last KEY and DIN words, a command that runs, one that is rejected, in both spellings, and an illegal
word; also with BUSYERR already set. -/
theorem witness_ObedientHostLosesNothing :
    (hostMay (running (.encrypt goldenBlock) []) (.hread 0x01#5) = true ∧
      ∃ t, exec (.hread 0x01#5) (running (.encrypt goldenBlock) []) = .next t) ∧
    (hostMay ready (.hread 0x1F#5) = true ∧ ∃ t, exec (.hread 0x1F#5) ready = .next t) ∧
    (∀ m ∈ [0#2, 3#2], ∀ s ∈ [ready, { ready with busyErr := true }],
      hostMay s (.hwrite (0x04#5 + m.setWidth 5) 7#64) = true ∧
      hostMay s (.hwrite (0x08#5 + m.setWidth 5) 7#64) = true) ∧
    (hostMay ready .decrypt = true ∧ Instr.decrypt = Command.decrypt.toInstr ∧
      commandError .decrypt ready = none ∧ ∃ t, exec .decrypt ready = .next t) ∧
    (hostMay ready (.hwrite 0x00#5 0x2#64) = true ∧ decodeCommand 0x2#64 = .ok .keysched ∧
      ∃ t, exec (.hwrite 0x00#5 0x2#64) ready = .next t) ∧
    (hostMay State.reset .encrypt = true ∧ commandError .encrypt State.reset = some .invalidLength ∧
      ∃ t, exec .encrypt State.reset = .next t) ∧
    (hostMay ready (.hwrite 0x00#5 0x6#64) = true ∧ legalWord 0x6#64 = false ∧
      ∃ t, exec (.hwrite 0x00#5 0x6#64) ready = .next t) :=
  ⟨⟨by decide, _, rfl⟩, ⟨by decide, _, rfl⟩, by simp only [List.forall_mem_cons]; decide,
    ⟨by decide, rfl, by decide, _, rfl⟩, ⟨by decide, by decide, _, rfl⟩, ⟨by decide, by decide, _, rfl⟩,
    ⟨by decide, by decide, _, rfl⟩⟩

/-- A block with a command in flight meets the invariant of STATUS, and steps. -/
theorem witness_EveryStepKeepsTheStatusInvariant :
    StatusInv (running (.encrypt goldenBlock) []) ∧ ∃ t, step (running (.encrypt goldenBlock) []) = .next t :=
  ⟨⟨fun _ => ⟨rfl, rfl⟩, fun h => absurd rfl h, (fun h => nomatch h)⟩, _, rfl⟩

theorem witness_EveryStepKeepsTheOperandCopy :
    OperandInv (running (.keysched goldenKey) []) ∧ ∃ t, step (running (.keysched goldenKey) []) = .next t :=
  ⟨⟨rfl, rfl⟩, _, rfl⟩

/-- A block that holds a ScheduledKey, and one whose ScheduledKey is being replaced. -/
theorem witness_EveryStepKeepsTheScheduledKeyInvariant :
    (KeyInv ready ∧ ∃ t, step ready = .next t) ∧
    (KeyInv (running (.keysched goldenKey) []) ∧ ∃ t, step (running (.keysched goldenKey) []) = .next t) :=
  ⟨⟨⟨fun _ => ⟨Reg.zero, rfl⟩, (fun h => nomatch h), (fun h => nomatch h), (fun h => nomatch h)⟩, _, rfl⟩,
    ⟨⟨(fun h => nomatch h), fun _ => .inl rfl, fun _ => rfl, (fun h => nomatch h)⟩, _, rfl⟩⟩

/-- A quiescent block with DONE = 0 and operand words written. -/
theorem witness_EveryStepKeepsTheFreshInvariant :
    let s : State := { State.reset with key := goldenKey, keyValid := 0b1111#4 }
    (s.busy = false ∧ s.done = false) ∧ FreshInv s ∧ ∃ t, step s = .next t :=
  ⟨⟨rfl, rfl⟩, fun _ _ => ⟨rfl, rfl, rfl, rfl, rfl⟩, _, rfl⟩

/-- Two blocks with different keys, blocks and operand copies. -/
theorem witness_ControlDoesNotDependOnData :
    let s := running (.encrypt goldenBlock) []
    let s' : State := { running (.encrypt vectorT) [] with key := vectorT, din := vectorT }
    controlView s = controlView s' ∧ s ≠ s' ∧ (∃ t, step s = .next t) ∧ ∃ t, step s' = .next t :=
  ⟨by decide, by decide, ⟨_, rfl⟩, ⟨_, rfl⟩⟩

/-- A busy block with a schedule, and one with none. -/
theorem witness_BusyBlockBecomesQuiescent :
    (running (.keysched goldenKey) [⟨false, none, false⟩]).busy = true ∧
    (running (.keysched goldenKey) []).busy = true := by decide

/-- `n` edges without completion and then one that completes. -/
def waiting (n : Nat) : List ClockEdge := List.replicate n ⟨false, none, false⟩ ++ [⟨false, none, true⟩]

theorem waiting_completesAfter (n : Nat) : completesAfter (n + 1) (waiting n) = true := by
  induction n with
  | zero => rfl
  | succ n ih => exact ih

/-- Whatever the open latency is, some schedule keeps it. -/
theorem witness_CommandIsInFlightForItsLatency :
    let s := running (.encrypt goldenBlock) (waiting Config.extraCrypt)
    s.inflight = some (.encrypt goldenBlock) ∧ keepsLatency (.encrypt goldenBlock) s.port = true :=
  ⟨rfl, waiting_completesAfter Config.extraCrypt⟩

end Sys2Proof.Tests
end

section
/-! SUPPORT. The halves of a register in limbs, and what XOR and the fold do to them (R10, R11). -/

namespace Sys2Proof.Machine

/-- The number a concatenation stands for: the left part above the `n` bits of the right part (R10, R11). -/
theorem toNat_append_eq_add {m n : Nat} (a : BitVec m) (b : BitVec n) :
    (a ++ b).toNat = a.toNat * 2 ^ n + b.toNat := by
  rw [BitVec.toNat_append, ← Nat.shiftLeft_add_eq_or_of_lt b.isLt, Nat.shiftLeft_eq]

theorem Reg.val_toNat (x : Reg) : x.val.toNat =
    x.l0.toNat * 2 ^ 192 + x.l1.toNat * 2 ^ 128 + x.l2.toNat * 2 ^ 64 + x.l3.toNat := by
  unfold Reg.val
  rw [toNat_append_eq_add, toNat_append_eq_add, toNat_append_eq_add]
  omega

/-- The value view as limbs 0, 1 beside limbs 2, 3 (R11). -/
theorem Reg.val_eq_joinHalves (x : Reg) :
    x.val = joinHalves (x.l0 ++ x.l1 : BitVec (64 + 64)) (x.l2 ++ x.l3 : BitVec (64 + 64)) := by
  unfold Reg.val joinHalves
  rw [BitVec.append_assoc]
  rfl

@[simp] theorem Reg.hi128_val (x : Reg) : hi128 x.val = (x.l0 ++ x.l1 : BitVec (64 + 64)) := by
  rw [x.val_eq_joinHalves, hi128_joinHalves]

@[simp] theorem Reg.lo128_val (x : Reg) : lo128 x.val = (x.l2 ++ x.l3 : BitVec (64 + 64)) := by
  rw [x.val_eq_joinHalves, lo128_joinHalves]

/-- XOR acts on each limb by itself. -/
theorem Reg.val_xor (x y : Reg) :
    (⟨x.l0 ^^^ y.l0, x.l1 ^^^ y.l1, x.l2 ^^^ y.l2, x.l3 ^^^ y.l3⟩ : Reg).val = x.val ^^^ y.val := by
  unfold Reg.val
  rw [BitVec.xor_append, BitVec.xor_append, BitVec.xor_append]

/-- The fold limb by limb (R141). -/
theorem fold_val (w : Reg) :
    fold w.val = ((w.l0 ^^^ w.l2) ++ (w.l1 ^^^ w.l3) : BitVec (64 + 64)) := by
  unfold fold
  rw [w.hi128_val, w.lo128_val, BitVec.xor_append]

end Sys2Proof.Machine
end

section
/-! SUPPORT. The round function in limbs, and the outer rounds as the 64 single steps (R140 to R148). -/

namespace Sys2Proof.Machine

/-- R141 down to the rule engine. -/
theorem roundFunction_eq (v : Half) (k : Wide) :
    roundFunction v k = fold (evolve (joinHalves v v ^^^ k) 0x1E#8 255) := rfl

/-- R141 with the half and the subkey in limbs. -/
theorem roundFunction_limbs (a b : Word64) (k w : Reg)
    (hw : w.val = evolve (⟨a ^^^ k.l0, b ^^^ k.l1, a ^^^ k.l2, b ^^^ k.l3⟩ : Reg).val 0x1E#8 255) :
    roundFunction (a ++ b : BitVec (64 + 64)) k.val =
      ((w.l0 ^^^ w.l2) ++ (w.l1 ^^^ w.l3) : BitVec (64 + 64)) := by
  have hin : (⟨a ^^^ k.l0, b ^^^ k.l1, a ^^^ k.l2, b ^^^ k.l3⟩ : Reg).val =
      joinHalves (a ++ b : BitVec (64 + 64)) (a ++ b : BitVec (64 + 64)) ^^^ k.val := by
    rw [Reg.val_xor ⟨a, b, a, b⟩ k, Reg.val_eq_joinHalves ⟨a, b, a, b⟩]
  rw [roundFunction_eq, ← hin, ← hw, fold_val]

theorem splitBlock_eq (b : Reg) :
    splitBlock b = ⟨(b.l0 ++ b.l1 : BitVec (64 + 64)), (b.l2 ++ b.l3 : BitVec (64 + 64))⟩ := by
  unfold splitBlock
  rw [b.hi128_val, b.lo128_val]

/-- The output block carries the final right half in limbs 0, 1 and the final left half in limbs 2, 3 (R145). -/
theorem halves_eq_of_outputBlock {o : Reg} {h : Halves} (ho : o = outputBlock h) :
    h.right = (o.l0 ++ o.l1 : BitVec (64 + 64)) ∧ h.left = (o.l2 ++ o.l3 : BitVec (64 + 64)) := by
  have hval : o.val = joinHalves h.right h.left := by rw [ho, outputBlock, Reg.val_ofVal]
  rw [← o.hi128_val, ← o.lo128_val, hval, hi128_joinHalves, lo128_joinHalves]
  exact ⟨rfl, rfl⟩

/-- `outerRounds` peels its first round; the same rounds with the last one peeled. -/
theorem outerRounds_succ (a b c d : Wide) (n : Nat) (h : Halves) :
    outerRounds a b c d (n + 1) h = outerRound a b c d (outerRounds a b c d n h) := by
  induction n generalizing h with
  | zero => rfl
  | succ n ih => exact ih (outerRound a b c d h)

theorem cipherSteps_succ_of_even (sk : ScheduledKey) (r : Bool) {s : Nat} (hs : s % 2 = 0) (h : Halves) :
    cipherSteps sk r (s + 1) h = stepLeft (cipherSubkey sk r s) (cipherSteps sk r s h) :=
  if_pos hs

theorem cipherSteps_succ_of_odd (sk : ScheduledKey) (r : Bool) {s : Nat} (hs : s % 2 = 1) (h : Halves) :
    cipherSteps sk r (s + 1) h = stepRight (cipherSubkey sk r s) (cipherSteps sk r s h) :=
  if_neg (by omega)

/-- The subkeys repeat every four steps (R144, R147). -/
theorem cipherSubkey_congr (sk : ScheduledKey) (r : Bool) {s t : Nat} (h : s % 4 = t % 4) :
    cipherSubkey sk r s = cipherSubkey sk r t := by
  unfold cipherSubkey
  rw [h]

/-- One outer round is four steps (R143). -/
theorem cipherSteps_add_four (sk : ScheduledKey) (r : Bool) {s : Nat} (hs : s % 4 = 0) (h : Halves) :
    cipherSteps sk r (s + 4) h =
      outerRound (cipherSubkey sk r 0) (cipherSubkey sk r 1) (cipherSubkey sk r 2) (cipherSubkey sk r 3)
        (cipherSteps sk r s h) := by
  rw [cipherSteps_succ_of_odd (s := s + 3) sk r (by omega),
    cipherSteps_succ_of_even (s := s + 2) sk r (by omega),
    cipherSteps_succ_of_odd (s := s + 1) sk r (by omega),
    cipherSteps_succ_of_even sk r (by omega),
    cipherSubkey_congr sk r (show s % 4 = 0 % 4 by omega),
    cipherSubkey_congr sk r (show (s + 1) % 4 = 1 % 4 by omega),
    cipherSubkey_congr sk r (show (s + 2) % 4 = 2 % 4 by omega),
    cipherSubkey_congr sk r (show (s + 3) % 4 = 3 % 4 by omega)]
  rfl

/-- `n` outer rounds are `4 * n` steps, in either order of the subkeys (R143, R144, R147). -/
theorem outerRounds_eq_cipherSteps (sk : ScheduledKey) (r : Bool) (n : Nat) (h : Halves) :
    outerRounds (cipherSubkey sk r 0) (cipherSubkey sk r 1) (cipherSubkey sk r 2) (cipherSubkey sk r 3) n h =
      cipherSteps sk r (4 * n) h := by
  induction n with
  | zero => rfl
  | succ n ih => rw [outerRounds_succ, ih, Nat.mul_succ, cipherSteps_add_four sk r (by omega)]

/-- R146: K1, K2, K3, K4 are the first four subkeys of the forward order. -/
theorem encryptBlock_eq_cipherSteps (sk : ScheduledKey) (p : Reg) :
    encryptBlock sk p = outputBlock (cipherSteps sk false 64 (splitBlock p)) :=
  congrArg outputBlock (outerRounds_eq_cipherSteps sk false 16 (splitBlock p))

/-- R148: K4, K3, K2, K1 are the first four subkeys of the reversed order. -/
theorem decryptBlock_eq_cipherSteps (sk : ScheduledKey) (c : Reg) :
    decryptBlock sk c = outputBlock (cipherSteps sk true 64 (splitBlock c)) :=
  congrArg outputBlock (outerRounds_eq_cipherSteps sk true 16 (splitBlock c))

end Sys2Proof.Machine
end

section
/-! PROOF. The cipher in limbs, down to the rule engine. -/

namespace Sys2Proof.Proofs

open Sys2Proof.Machine

/-- Settles O36: the halves and the round function are read in limbs, and the 16 outer rounds are the 64
single steps by induction on the rounds. -/
theorem cipherIsSixtyFourAlternatingSteps : Obligations.CipherIsSixtyFourAlternatingSteps := by
  refine ⟨Reg.val_toNat, fun x => ⟨x.hi128_val, x.lo128_val⟩,
    fun a b c d => (Reg.val_eq_joinHalves ⟨a, b, c, d⟩).symm, roundFunction_eq, roundFunction_limbs, ?_⟩
  intro sk b o h h' hstart hrun
  rw [← splitBlock_eq] at hstart
  subst hstart
  apply halves_eq_of_outputBlock
  rcases hrun with ⟨hsteps, hout⟩ | ⟨hsteps, hout⟩
  · rw [hout, hsteps, encryptBlock_eq_cipherSteps]
  · rw [hout, hsteps, decryptBlock_eq_cipherSteps]

end Sys2Proof.Proofs
end

section
/-! SUPPORT. A clock edge as its transaction and the engine's turn, and the induction step every invariant
of the state is proved by (R64). -/

namespace Sys2Proof.Machine

/-- The state the transaction of the coming edge leaves, before the engine's turn (R64). -/
def afterTransaction (s : State) : State :=
  match s.fetch with
  | none => sampleEdge s
  | some i => effect i (sampleEdge s)

theorem afterTransaction_of_none {s : State} (h : s.fetch = none) : afterTransaction s = sampleEdge s := by
  simp only [afterTransaction, h]

theorem afterTransaction_of_some {s : State} {i : Instr} (h : s.fetch = some i) :
    afterTransaction s = effect i (sampleEdge s) := by
  simp only [afterTransaction, h]

/-- No transaction does what a dropped one does. -/
theorem afterTransaction_cases (s : State) : TransactionEffect (sampleEdge s) (afterTransaction s) := by
  cases hf : s.fetch with
  | none => rw [afterTransaction_of_none hf]; exact .dropped
  | some i => rw [afterTransaction_of_some hf]; exact effect_cases i _

theorem nextState_of_rst {s : State} (hr : s.edge.rst = true) : nextState s = resetBlock (sampleEdge s) := by
  simp only [nextState, hr, if_true]

theorem nextState_of_no_rst {s : State} (hr : s.edge.rst = false) :
    nextState s = engineTurn s (afterTransaction s) := by
  cases hf : s.fetch with
  | none => simp only [nextState, hr, hf, afterTransaction_of_none hf, Bool.false_eq_true, if_false]
  | some i => simp only [nextState, hr, hf, afterTransaction_of_some hf, Bool.false_eq_true, if_false]

/-- One step is reset, or a transaction, or a transaction and then a completion. -/
inductive StepOutcome (s : State) : State → Prop
  | reset (hr : s.edge.rst = true) : StepOutcome s (resetBlock (sampleEdge s))
  | settled (hr : s.edge.rst = false) (hc : (s.edge.completes && s.busy) = false) :
      StepOutcome s (afterTransaction s)
  | completed (hr : s.edge.rst = false) (hc : s.edge.completes = true) (hb : s.busy = true) :
      StepOutcome s (completionStep (afterTransaction s))

theorem step_outcome {s t : State} (h : step s = .next t) : StepOutcome s t := by
  rw [step_next h]
  cases hr : s.edge.rst with
  | true => rw [nextState_of_rst hr]; exact .reset hr
  | false =>
    rw [nextState_of_no_rst hr, engineTurn]
    split
    · next hc =>
      obtain ⟨hcompl, hb⟩ := Bool.and_eq_true_iff.mp hc
      exact .completed hr hcompl hb
    · next hc => exact .settled hr (Bool.eq_false_iff.mpr hc)

/-- While BUSY = 1 a transaction can only drive `rdata` and set BUSYERR (R31, R37, R223). -/
theorem transaction_of_busy {s t : State} (h : TransactionEffect s t) (hb : s.busy = true) :
    (∃ v, t = driveRead v s) ∨ t = driveFree s ∨ t = s ∨ t = loseWrite s := by
  cases h with
  | readValue v => exact .inl ⟨v, rfl⟩
  | readFree => exact .inr (.inl rfl)
  | dropped => exact .inr (.inr (.inl rfl))
  | lost => exact .inr (.inr (.inr rfl))
  | key _ _ hi | din _ _ hi | rejected _ hi | evolve _ _ hi | keysched hi | encrypt hi | decrypt hi | nop hi
  | clear hi => exact absurd (hi.symm.trans hb) Bool.false_ne_true

theorem afterTransaction_inflight_of_busy {s : State} (hb : s.busy = true) :
    (afterTransaction s).inflight = s.inflight := by
  obtain ⟨v, h⟩ | h | h | h := transaction_of_busy (afterTransaction_cases s) hb <;> rw [h] <;> rfl

theorem afterTransaction_busy {s : State} (hb : s.busy = true) : (afterTransaction s).busy = true := by
  rw [State.busy, afterTransaction_inflight_of_busy hb]; exact hb

/-- A property every step keeps: it holds after reset, and the sampling of the edge, each transaction and
each completion keep it. -/
theorem step_keeps {P : State → Prop} (reset : ∀ s, P (resetBlock s)) (sample : ∀ s, P s → P (sampleEdge s))
    (transaction : ∀ s t, TransactionEffect s t → P s → P t)
    (completion : ∀ s t, CompletionEffect s t → P s → P t)
    {s t : State} (hs : P s) (h : step s = .next t) : P t := by
  have after : P (afterTransaction s) := transaction _ _ (afterTransaction_cases s) (sample s hs)
  cases step_outcome h with
  | reset => exact reset _
  | settled => exact after
  | completed _ _ hb => exact completion _ _ (completionStep_cases (afterTransaction_busy hb)) after

/-- The state after reset is a reset state. -/
theorem reset_eq_resetBlock : State.reset = resetBlock State.reset := rfl

end Sys2Proof.Machine
end

section
/-! SUPPORT. Each invariant of Safety.lean at reset, over a transaction and over a completion step. -/

namespace Sys2Proof.Safety

open Sys2Proof.Machine

theorem statusInv_resetBlock (s : State) : StatusInv (resetBlock s) :=
  ⟨fun hb => (nomatch hb), fun he => absurd rfl he, fun he => nomatch he⟩

theorem statusInv_transaction {s t : State} (h : TransactionEffect s t) (hs : StatusInv s) : StatusInv t := by
  obtain ⟨pending, reported, noAllocation⟩ := hs
  cases h with
  | readValue | readFree | dropped | lost | key | din => exact ⟨pending, reported, noAllocation⟩
  | rejected e hb he ha => exact ⟨fun hb' => absurd (hb.symm.trans hb') Bool.false_ne_true, fun _ => rfl, ha⟩
  | evolve | keysched | encrypt | decrypt =>
    exact ⟨fun _ => ⟨rfl, rfl⟩, fun he => absurd rfl he, fun he => nomatch he⟩
  | nop hb =>
    exact ⟨fun hb' => absurd (hb.symm.trans hb') Bool.false_ne_true, fun _ => rfl, fun he => nomatch he⟩
  | clear => exact ⟨fun hb' => (nomatch hb'), fun _ => rfl, fun he => nomatch he⟩

theorem statusInv_completion {s t : State} (h : CompletionEffect s t) (hs : StatusInv s) : StatusInv t := by
  have noAllocation : t.err ≠ .allocationFailure := by
    cases h <;> exact hs.no_allocation_failure
  cases h with
  | evolve | keysched | encrypt | decrypt => exact ⟨fun hb => (nomatch hb), fun _ => rfl, noAllocation⟩

/-- A quiescent block holds no operand copy. -/
theorem operandInv_of_idle {s : State} (h : s.inflight = none) : OperandInv s := by
  simp only [OperandInv, h]

theorem operandInv_transaction {s t : State} (h : TransactionEffect s t) (hs : OperandInv s) :
    OperandInv t := by
  cases h with
  | readValue | readFree | dropped | lost => exact hs
  | key _ _ hb | din _ _ hb | rejected _ hb | nop hb => exact operandInv_of_idle ((not_busy_iff s).mp hb)
  | clear => exact operandInv_of_idle rfl
  | evolve | keysched | encrypt | decrypt => exact ⟨rfl, rfl⟩

theorem operandInv_completion {s t : State} (h : CompletionEffect s t) : OperandInv t := by
  cases h <;> exact operandInv_of_idle rfl

/-- A quiescent block is neither scheduling a key nor ciphering. -/
theorem schedulingKey_of_idle {s : State} (h : s.inflight = none) : schedulingKey s = false := by
  simp only [schedulingKey, h]

theorem ciphering_of_idle {s : State} (h : s.inflight = none) : ciphering s = false := by
  simp only [ciphering, h]

/-- Of a quiescent block the invariant speaks of SK_VALID and the SK file alone. -/
theorem keyInv_iff_of_idle {s : State} (h : s.inflight = none) :
    KeyInv s ↔
      (s.skValid = true → ∃ k, s.sk = derive k) ∧ (s.skValid = false → s.sk = ScheduledKey.zero) := by
  have hk := schedulingKey_of_idle h
  have hc := ciphering_of_idle h
  constructor
  · rintro ⟨valid, invalid, -, -⟩
    exact ⟨valid, fun hv => (invalid hv).resolve_left (by simp [hk])⟩
  · rintro ⟨valid, invalid⟩
    exact ⟨valid, fun hv => .inr (invalid hv), by simp [hk], by simp [hc]⟩

theorem keyInv_resetBlock (s : State) : KeyInv (resetBlock s) :=
  (keyInv_iff_of_idle rfl).mpr ⟨fun hv => (nomatch hv), fun _ => rfl⟩

theorem keyInv_transaction {s t : State} (h : TransactionEffect s t) (hs : KeyInv s) : KeyInv t := by
  have idle : s.busy = false →
      (s.skValid = true → ∃ k, s.sk = derive k) ∧ (s.skValid = false → s.sk = ScheduledKey.zero) :=
    fun hb => (keyInv_iff_of_idle ((not_busy_iff s).mp hb)).mp hs
  cases h with
  | readValue | readFree | dropped | lost | key | din | rejected | nop =>
    exact ⟨hs.valid_derived, hs.invalid_zero, hs.replacing_invalid, hs.cipher_valid⟩
  | clear => exact (keyInv_iff_of_idle rfl).mpr ⟨fun hv => (nomatch hv), fun _ => rfl⟩
  | evolve rule gen hb =>
    obtain ⟨valid, invalid⟩ := idle hb
    exact ⟨valid, fun hv => .inr (invalid hv), fun hk => (nomatch hk), fun hc => nomatch hc⟩
  | keysched => exact ⟨fun hv => (nomatch hv), fun _ => .inl rfl, fun _ => rfl, fun hc => nomatch hc⟩
  | encrypt hb _ hv | decrypt hb _ hv =>
    obtain ⟨valid, invalid⟩ := idle hb
    exact ⟨valid, fun hv => .inr (invalid hv), fun hk => (nomatch hk), fun _ => hv⟩

theorem keyInv_completion {s t : State} (h : CompletionEffect s t) (hs : KeyInv s) : KeyInv t := by
  have keeps : schedulingKey s = false → t.inflight = none → t.skValid = s.skValid → t.sk = s.sk →
      KeyInv t := by
    intro hk hi hv hsk
    rw [keyInv_iff_of_idle hi, hv, hsk]
    exact ⟨hs.valid_derived, fun hv => (hs.invalid_zero hv).resolve_left (by simp [hk])⟩
  cases h with
  | keysched k => exact (keyInv_iff_of_idle rfl).mpr ⟨fun _ => ⟨k, rfl⟩, fun hv => nomatch hv⟩
  | evolve _ _ _ hi | encrypt _ hi | decrypt _ hi =>
    exact keeps (by simp only [schedulingKey, hi]) rfl rfl rfl

theorem freshInv_resetBlock (s : State) : FreshInv (resetBlock s) := fun _ _ => ⟨rfl, rfl, rfl, rfl, rfl⟩

/-- The invariant asks nothing of a block that is busy or has DONE = 1. -/
theorem freshInv_of_done {s : State} (h : s.done = true) : FreshInv s :=
  fun _ hd => absurd (hd.symm.trans h) Bool.false_ne_true

theorem freshInv_of_busy {s : State} (h : s.busy = true) : FreshInv s :=
  fun hb => absurd (hb.symm.trans h) Bool.false_ne_true

theorem freshInv_transaction {s t : State} (h : TransactionEffect s t) (hs : FreshInv s) : FreshInv t := by
  cases h with
  | readValue | readFree | dropped | key | din => exact hs
  | lost hb => exact freshInv_of_busy hb
  | rejected | nop | clear => exact freshInv_of_done rfl
  | evolve | keysched | encrypt | decrypt => exact freshInv_of_busy rfl

theorem freshInv_completion {s t : State} (h : CompletionEffect s t) : FreshInv t := by
  cases h <;> exact freshInv_of_done rfl

end Sys2Proof.Safety
end

section
/-! PROOF. The invariants of the state: at reset, and kept by every step. -/

namespace Sys2Proof.Proofs

open Sys2Proof.Machine Sys2Proof.Safety

/-- Settles O54: `step_keeps` with STATUS's invariant over reset, a transaction and a completion. -/
theorem everyStepKeepsTheStatusInvariant : Obligations.EveryStepKeepsTheStatusInvariant := by
  intro s t hs h
  refine step_keeps statusInv_resetBlock (fun s hs => ?_) (fun _ _ => statusInv_transaction)
    (fun _ _ => statusInv_completion) hs h
  exact ⟨hs.busy_pending, hs.error_done, hs.no_allocation_failure⟩

/-- Settles O55: a transaction makes an operand copy only by accepting a command, with the copy and the
valid bits as acceptance leaves them, and changes no operand while one is in flight. -/
theorem everyStepKeepsTheOperandCopy : Obligations.EveryStepKeepsTheOperandCopy := fun _ _ =>
  step_keeps (fun _ => operandInv_of_idle rfl) (fun _ => id) (fun _ _ => operandInv_transaction)
    (fun _ _ h _ => operandInv_completion h)

/-- Settles O56: acceptance of KEYSCHED opens the interval in which the SK file is being replaced, its
completion closes it with a derived key, and only CLEAR and reset zero the file. -/
theorem everyStepKeepsTheScheduledKeyInvariant : Obligations.EveryStepKeepsTheScheduledKeyInvariant := by
  intro s t hs h
  refine step_keeps keyInv_resetBlock (fun s hs => ?_) (fun _ _ => keyInv_transaction)
    (fun _ _ => keyInv_completion) hs h
  exact ⟨hs.valid_derived, hs.invalid_zero, hs.replacing_invalid, hs.cipher_valid⟩

/-- Settles O57: whatever a command does ends with BUSY = 1 or DONE = 1, where the invariant asks nothing. -/
theorem everyStepKeepsTheFreshInvariant : Obligations.EveryStepKeepsTheFreshInvariant := fun _ _ =>
  step_keeps freshInv_resetBlock (fun _ => id) (fun _ _ => freshInv_transaction)
    (fun _ _ h _ => freshInv_completion h)

/-- Settles O53: the state after reset is a reset state. -/
theorem invariantsHoldAtReset : Obligations.InvariantsHoldAtReset := by
  unfold Obligations.InvariantsHoldAtReset
  rw [reset_eq_resetBlock]
  exact ⟨statusInv_resetBlock _, operandInv_of_idle rfl, keyInv_resetBlock _, freshInv_resetBlock _⟩

end Sys2Proof.Proofs
end

section
/-! SUPPORT. Word indices of the operand and result registers, the valid bits, and what the two host
transactions do there (R35, R170, R171). -/

namespace Sys2Proof.Machine

theorem key_wordIndex (m : BitVec 2) : 0x04#5 + m.setWidth 5 = (HostReg.key m).index := by
  revert m; decide

theorem din_wordIndex (m : BitVec 2) : 0x08#5 + m.setWidth 5 = (HostReg.din m).index := by
  revert m; decide

theorem dout_wordIndex (m : BitVec 2) : 0x0C#5 + m.setWidth 5 = (HostReg.dout m).index := by
  revert m; decide

theorem sk_wordIndex (j m : BitVec 2) :
    0x10#5 + 4#5 * j.setWidth 5 + m.setWidth 5 = (HostReg.sk j m).index := by
  revert j m; decide

theorem exec_hread_index_specified {r : HostReg} (s : State) (h : r.isResult = false) :
    exec (.hread r.index) s = .next { s with rdata := s.readReg r } := by
  rw [exec_eq_effect, effect, hostReg_index, h, Bool.and_false]
  rfl

theorem exec_hread_index_free {r : HostReg} {s : State} (hb : s.busy = true) (h : r.isResult = true) :
    exec (.hread r.index) s = .next { s with rdata := Config.freeWord s.draws, draws := s.draws + 1 } := by
  rw [exec_eq_effect, effect, hostReg_index, h, hb]
  rfl

theorem exec_hwrite_index (r : HostReg) (d : Word64) (s : State) :
    exec (.hwrite r.index d) s = .next (writeReg r d s) := by
  rw [exec_eq_effect, effect, hostReg_index]

theorem exec_hwrite_key {s : State} (m : BitVec 2) (d : Word64) (hb : s.busy = false) :
    exec (.hwrite (0x04#5 + m.setWidth 5) d) s = .next (storeKey m d s) := by
  rw [key_wordIndex, exec_hwrite_index, writeReg, unlessBusy_of_idle _ hb]

theorem exec_hwrite_din {s : State} (m : BitVec 2) (d : Word64) (hb : s.busy = false) :
    exec (.hwrite (0x08#5 + m.setWidth 5) d) s = .next (storeDin m d s) := by
  rw [din_wordIndex, exec_hwrite_index, writeReg, unlessBusy_of_idle _ hb]

/-- Bit `n` of the valid bits after bit `m` was set (R32, R33). -/
theorem setValid_getLsbD (v : BitVec 4) (m n : BitVec 2) :
    (setValid v m).getLsbD n.toNat = (decide (n = m) || v.getLsbD n.toNat) := by
  revert v m n; decide

theorem setValid_getLsbD_same (v : BitVec 4) (m : BitVec 2) : (setValid v m).getLsbD m.toNat = true := by
  rw [setValid_getLsbD, decide_eq_true rfl, Bool.true_or]

theorem setValid_getLsbD_other (v : BitVec 4) {m n : BitVec 2} (h : n ≠ m) :
    (setValid v m).getLsbD n.toNat = v.getLsbD n.toNat := by
  rw [setValid_getLsbD, decide_eq_false h, Bool.false_or]

/-- A field that lies in the left part of a concatenation, `m` bits up. -/
theorem extractLsb'_append_add (m : Nat) {n i len : Nat} (x : BitVec n) (y : BitVec m) :
    (x ++ y).extractLsb' (i + m) len = x.extractLsb' i len := by
  rw [BitVec.extractLsb'_append_eq_of_le (Nat.le_add_left m i), Nat.add_sub_cancel]

/-- The fields of STATUS above its four flags (R27). -/
theorem State.statusWord_extract_above_flags (s : State) (i len : Nat) :
    s.statusWord.extractLsb' (i + 4) len =
      (0#48 ++ s.err.code ++ s.dinValid ++ s.keyValid).extractLsb' i len := by
  unfold State.statusWord
  rw [extractLsb'_append_add 1, extractLsb'_append_add 1, extractLsb'_append_add 1, extractLsb'_append_add 1]

/-- The reserved indices name no register (R36). -/
theorem hostReg_of_reserved {i : WordIndex} (h : i = 0x02#5 ∨ i = 0x03#5) : hostReg i = .reserved := by
  obtain rfl | rfl := h <;> rfl

end Sys2Proof.Machine
end

section
/-! PROOF. The STATUS word, and the register space under HREAD and HWRITE. -/

namespace Sys2Proof.Proofs

open Sys2Proof.Machine

/-- Settles O10: each field is read off the concatenation of R27 below the fields that stand above it. -/
theorem statusWordHoldsEachField : Obligations.StatusWordHoldsEachField := by
  intro s
  refine ⟨?busy, ?done, ?skValid, ?busyErr, ?keyValid, ?dinValid, ?err, ?reserved⟩
  case busy => rw [State.statusWord, BitVec.getLsbD_append]; simp [State.busy]
  case done => rw [State.statusWord, BitVec.getLsbD_append, BitVec.getLsbD_append]; simp
  case skValid =>
    rw [State.statusWord, BitVec.getLsbD_append, BitVec.getLsbD_append, BitVec.getLsbD_append]; simp
  case busyErr =>
    rw [State.statusWord, BitVec.getLsbD_append, BitVec.getLsbD_append, BitVec.getLsbD_append,
      BitVec.getLsbD_append]
    simp
  case keyValid => rw [s.statusWord_extract_above_flags 0, BitVec.extractLsb'_append_eq_right]
  case dinValid =>
    rw [s.statusWord_extract_above_flags 4, extractLsb'_append_add (i := 0) 4, BitVec.extractLsb'_append_eq_right]
  case err =>
    rw [s.statusWord_extract_above_flags 8, extractLsb'_append_add (i := 4) 4, extractLsb'_append_add (i := 0) 4,
      BitVec.extractLsb'_append_eq_right]
  case reserved =>
    rw [s.statusWord_extract_above_flags 12, extractLsb'_append_add (i := 8) 4, extractLsb'_append_add (i := 4) 4,
      BitVec.extractLsb'_append_eq_left]

/-- Settles O11: while BUSY = 0 the write reaches `storeKey` or `storeDin`, which are these updates. -/
theorem hwriteStoresKeyAndDinWords : Obligations.HwriteStoresKeyAndDinWords := fun _ m d hb =>
  ⟨exec_hwrite_key m d hb, exec_hwrite_din m d hb⟩

/-- Settles O12: the state is the one O11's write leaves, read limb by limb and bit by bit. -/
theorem writtenOperandWordsReadBack : Obligations.WrittenOperandWordsReadBack := by
  intro s m d hb
  refine ⟨⟨_, exec_hwrite_key m d hb, ?_, setValid_getLsbD_same _ m, fun n hn =>
      ⟨Reg.limb_setLimb_other _ d hn, setValid_getLsbD_other _ hn⟩⟩,
    ⟨_, exec_hwrite_din m d hb, ?_, setValid_getLsbD_same _ m, fun n hn =>
      ⟨Reg.limb_setLimb_other _ d hn, setValid_getLsbD_other _ hn⟩⟩⟩
  · rw [key_wordIndex, exec_hread_index_specified _ rfl, State.readReg, storeKey_key, Reg.limb_setLimb_same]
  · rw [din_wordIndex, exec_hread_index_specified _ rfl, State.readReg, storeDin_din, Reg.limb_setLimb_same]

/-- Settles O8: DOUT and SK are the result registers, and BUSY = 1 makes their reads free. -/
theorem busyReadOfAResultIsUnspecified : Obligations.BusyReadOfAResultIsUnspecified := by
  intro s j m hb
  rw [dout_wordIndex, sk_wordIndex]
  exact ⟨exec_hread_index_free hb rfl, exec_hread_index_free hb rfl⟩

/-- Settles O15: the reserved register is no result, so its read is specified, and no write reaches it. -/
theorem reservedIndicesReadZeroAndIgnoreWrites : Obligations.ReservedIndicesReadZeroAndIgnoreWrites := by
  intro s i d hi
  rw [exec_eq_effect, exec_eq_effect, effect, effect, hostReg_of_reserved hi, HostReg.isResult, Bool.and_false]
  exact ⟨rfl, rfl⟩

end Sys2Proof.Proofs
end

section
/-! SUPPORT. Which instruction a presented transaction is, and what a presented instruction can do to BUSYERR,
DOUT and the SK file. -/

namespace Sys2Proof.Machine

theorem decodeTransaction_header (x : Transaction) :
    decodeTransaction x.header x.wdata = if x.we then .hwrite x.widx x.wdata else .hread x.widx := by
  have hwe : x.header.getLsbD 5 = x.we := by
    rw [Transaction.header, BitVec.getLsbD_append]
    simp
  have hidx : x.header.extractLsb' 0 5 = x.widx := BitVec.extractLsb'_append_eq_right
  rw [decodeTransaction, hwe, hidx]

/-- The port reads a write to CMD of a legal word as its command, and every other transaction as it stands
(R71, R78). -/
theorem transaction_instr_cases (x : Transaction) :
    (x.we = false ∧ x.instr = .hread x.widx) ∨
    (x.we = true ∧ x.widx = 0#5 ∧ ∃ c : Command, x.instr = c.toInstr) ∨
    (x.we = true ∧ x.instr = .hwrite x.widx x.wdata ∧
      (x.widx = 0#5 → ∃ e, decodeCommand x.wdata = .error e)) := by
  unfold Transaction.instr decodePort
  rw [decodeTransaction_header]
  cases hwe : x.we with
  | false => exact .inl ⟨rfl, rfl⟩
  | true =>
    by_cases hidx : x.widx = 0#5
    · cases hd : decodeCommand x.wdata with
      | ok c => simp [hidx, hd]
      | error e => simp [hidx, hd]
    · simp [hidx]

end Sys2Proof.Machine

namespace Sys2Proof

/-- The instruction is a write to CMD, KEY or DIN (R31, R78). -/
def Instr.writesGuarded : Instr → Bool
  | .hread _ => false
  | .hwrite i _ => (Machine.hostReg i).isGuarded
  | .nop => true
  | .evolve _ _ => true
  | .keysched => true
  | .encrypt => true
  | .decrypt => true
  | .clear => true

@[simp] theorem Command.toInstr_writesGuarded (c : Command) : c.toInstr.writesGuarded = true := by
  cases c <;> rfl

end Sys2Proof

namespace Sys2Proof.Machine

theorem isGuarded_iff (i : WordIndex) :
    (hostReg i).isGuarded = true ↔ i = 0x00#5 ∨ (0x04#5 ≤ i ∧ i ≤ 0x0B#5) := by
  revert i; decide

theorem hostReg_eq_cmd_iff (i : WordIndex) : hostReg i = .cmd ↔ i = 0x00#5 := by
  revert i; decide

theorem transaction_writesGuarded_iff (x : Transaction) : x.instr.writesGuarded = true ↔
    x.we = true ∧ (x.widx = 0x00#5 ∨ (0x04#5 ≤ x.widx ∧ x.widx ≤ 0x0B#5)) := by
  rw [← isGuarded_iff]
  obtain ⟨hwe, hi⟩ | ⟨hwe, hidx, c, hi⟩ | ⟨hwe, hi, -⟩ := transaction_instr_cases x
  · simp [hi, hwe, Instr.writesGuarded]
  · simp [hi, hwe, hidx, isGuarded_iff]
  · simp [hi, hwe, Instr.writesGuarded]

theorem fetch_eq_some_iff {s : State} {i : Instr} :
    s.fetch = some i ↔ ∃ x, s.edge.txn = some x ∧ x.instr = i :=
  Option.map_eq_some_iff

/-- What the port carries to CMD as a raw write is no legal command word (R78). -/
theorem fetch_hwrite_cmd {s : State} {d : Word64} (h : s.fetch = some (.hwrite 0#5 d)) :
    ∃ e, decodeCommand d = .error e := by
  obtain ⟨x, -, hx⟩ := fetch_eq_some_iff.mp h
  obtain ⟨-, hi⟩ | ⟨-, -, c, hi⟩ | ⟨-, hi, hd⟩ := transaction_instr_cases x
  · rw [hi] at hx; cases hx
  · rw [hi] at hx; cases c <;> cases hx
  · rw [hi] at hx
    obtain ⟨hidx, rfl⟩ := Instr.hwrite.inj hx
    exact hd hidx

/-- BUSY = 1 loses every write to CMD, KEY or DIN (R31, R206). -/
theorem effect_of_busy_guarded {i : Instr} {s : State} (hb : s.busy = true) (hg : i.writesGuarded = true) :
    effect i s = loseWrite s := by
  cases i with
  | hread r => exact absurd hg Bool.false_ne_true
  | hwrite r d =>
    rw [Instr.writesGuarded] at hg
    rw [effect]
    generalize hostReg r = reg at hg ⊢
    cases reg with
    | cmd | key | din => exact unlessBusy_of_busy _ hb
    | status | reserved | dout | sk => exact absurd hg Bool.false_ne_true
  | nop | evolve | keysched | encrypt | decrypt | clear => exact unlessBusy_of_busy _ hb

/-- `t` has the SK file, DOUT and BUSYERR of `s`. -/
structure KeepsResults (s t : State) : Prop where
  sk : t.sk = s.sk
  dout : t.dout = s.dout
  busyErr : t.busyErr = s.busyErr

theorem accept_keepsResults (c : InFlight) (s : State) : KeepsResults s (accept c s) :=
  ⟨accept_sk c s, accept_dout c s, accept_busyErr c s⟩

theorem raiseError_keepsResults (e : ErrCode) (s : State) : KeepsResults s (raiseError e s) := ⟨rfl, rfl, rfl⟩

theorem commandCipher_keepsResults (record : Reg → InFlight) (s : State) :
    KeepsResults s (commandCipher record s) := by
  unfold commandCipher
  split_ifs
  · exact accept_keepsResults _ s
  · exact raiseError_keepsResults _ s
  · exact raiseError_keepsResults _ s

/-- Of the commands only NOP and CLEAR change BUSYERR, DOUT or the SK file at the write of their word (R172 to
R174). -/
theorem runCommand_keepsResults {c : Command} (s : State) (hn : c ≠ .nop) (hc : c ≠ .clear) :
    KeepsResults s (runCommand c s) := by
  cases c with
  | nop => exact absurd rfl hn
  | clear => exact absurd rfl hc
  | evolve rule gen =>
    rw [runCommand, commandEvolve]
    split
    · exact accept_keepsResults _ s
    · exact raiseError_keepsResults _ s
  | keysched =>
    rw [runCommand, commandKeysched]
    split
    · exact accept_keepsResults _ s
    · exact raiseError_keepsResults _ s
  | encrypt | decrypt => exact commandCipher_keepsResults _ s

/-- What the instruction presented at an edge, or none, does to BUSYERR, DOUT and the SK file. -/
inductive PresentedEffect (s : State) : Option Instr → State → Prop
  /-- NOP runs (R173). -/
  | nop (hb : s.busy = false) : PresentedEffect s (some .nop) (commandNop s)
  /-- CLEAR runs (R174). -/
  | clear (hb : s.busy = false) : PresentedEffect s (some .clear) (commandClear s)
  /-- A write to CMD, KEY or DIN is lost (R31). -/
  | lost (i : Instr) (hb : s.busy = true) (hg : i.writesGuarded = true) :
      PresentedEffect s (some i) (loseWrite s)
  /-- No transaction, or any other one. -/
  | kept (f : Option Instr) (t : State) (hn : f ≠ some .nop) (hc : f ≠ some .clear)
      (hg : s.busy = true → ∀ i, f = some i → i.writesGuarded = false) (hk : KeepsResults s t) :
      PresentedEffect s f t

theorem idle_of_not_lost {i : Instr} {s : State} (hl : ¬ (s.busy = true ∧ i.writesGuarded = true))
    (hg : i.writesGuarded = true) : s.busy = false :=
  Bool.eq_false_iff.mpr fun hb => hl ⟨hb, hg⟩

/-- A transaction that is not lost, and is neither NOP nor CLEAR, keeps BUSYERR, DOUT and the SK file. -/
theorem effect_keepsResults {i : Instr} {s : State}
    (hraw : ∀ d, i = .hwrite 0#5 d → ∃ e, decodeCommand d = .error e) (hn : i ≠ .nop) (hc : i ≠ .clear)
    (hl : ¬ (s.busy = true ∧ i.writesGuarded = true)) : KeepsResults s (effect i s) := by
  have idle := idle_of_not_lost hl
  cases i with
  | hread r =>
    rw [effect]
    split_ifs
    · exact ⟨rfl, rfl, rfl⟩
    · exact ⟨rfl, rfl, rfl⟩
  | hwrite r d =>
    rw [Instr.writesGuarded] at idle
    rw [effect]
    cases hr : hostReg r with
    | cmd =>
      obtain ⟨e, he⟩ := hraw d (by rw [(hostReg_eq_cmd_iff r).mp hr])
      rw [writeReg, unlessBusy_of_idle _ (idle (by rw [hr]; rfl)), commandWord, he]
      exact raiseError_keepsResults _ s
    | key m => rw [writeReg, unlessBusy_of_idle _ (idle (by rw [hr]; rfl))]; exact ⟨rfl, rfl, rfl⟩
    | din m => rw [writeReg, unlessBusy_of_idle _ (idle (by rw [hr]; rfl))]; exact ⟨rfl, rfl, rfl⟩
    | status | reserved | dout | sk => exact ⟨rfl, rfl, rfl⟩
  | nop => exact absurd rfl hn
  | clear => exact absurd rfl hc
  | evolve rule gen =>
    rw [effect, unlessBusy_of_idle _ (idle rfl)]
    exact runCommand_keepsResults (c := .evolve rule gen) s (by simp) (by simp)
  | keysched =>
    rw [effect, unlessBusy_of_idle _ (idle rfl)]
    exact runCommand_keepsResults (c := .keysched) s (by simp) (by simp)
  | encrypt | decrypt =>
    rw [effect, unlessBusy_of_idle _ (idle rfl)]
    exact commandCipher_keepsResults _ s

theorem effect_presented {i : Instr} (s : State)
    (hraw : ∀ d, i = .hwrite 0#5 d → ∃ e, decodeCommand d = .error e) :
    PresentedEffect s (some i) (effect i s) := by
  by_cases hl : s.busy = true ∧ i.writesGuarded = true
  · rw [effect_of_busy_guarded hl.1 hl.2]
    exact .lost i hl.1 hl.2
  · have idle := idle_of_not_lost hl
    by_cases hn : i = .nop
    · subst hn
      rw [effect, unlessBusy_of_idle _ (idle rfl)]
      exact .nop (idle rfl)
    by_cases hc : i = .clear
    · subst hc
      rw [effect, unlessBusy_of_idle _ (idle rfl)]
      exact .clear (idle rfl)
    refine .kept _ _ (by simpa using hn) (by simpa using hc) (fun hb j hj => ?_)
      (effect_keepsResults hraw hn hc hl)
    obtain rfl := Option.some.inj hj
    exact Bool.eq_false_iff.mpr fun hg => hl ⟨hb, hg⟩

theorem afterTransaction_presented (s : State) :
    PresentedEffect (sampleEdge s) s.fetch (afterTransaction s) := by
  cases hf : s.fetch with
  | none =>
    rw [afterTransaction_of_none hf]
    exact .kept _ _ nofun nofun nofun ⟨rfl, rfl, rfl⟩
  | some i =>
    rw [afterTransaction_of_some hf]
    exact effect_presented _ fun d hd => fetch_hwrite_cmd (hd ▸ hf)

/-- A transaction changes the SK file or DOUT only as CLEAR (R40, R174). -/
theorem afterTransaction_results (s : State) :
    (s.busy = false ∧ s.fetch = some .clear ∧ (afterTransaction s).sk = ScheduledKey.zero ∧
      (afterTransaction s).dout = Reg.zero) ∨
    ((afterTransaction s).sk = s.sk ∧ (afterTransaction s).dout = s.dout) := by
  have h := afterTransaction_presented s
  generalize afterTransaction s = t at h ⊢
  generalize hf : s.fetch = f at h ⊢
  cases h with
  | clear hb => exact .inl ⟨hb, rfl, rfl, rfl⟩
  | nop | lost => exact .inr ⟨rfl, rfl⟩
  | kept _ _ _ _ _ hk => exact .inr ⟨hk.sk, hk.dout⟩

theorem afterTransaction_results_of_busy {s : State} (hb : s.busy = true) :
    (afterTransaction s).sk = s.sk ∧ (afterTransaction s).dout = s.dout := by
  obtain ⟨v, h⟩ | h | h | h := transaction_of_busy (afterTransaction_cases s) hb <;> rw [h] <;> exact ⟨rfl, rfl⟩

/-- What one step can make of the SK file (R40). -/
theorem step_sk_cases {s t : State} (h : step s = .next t) :
    t.sk = s.sk ∨ s.edge.rst = true ∨
    (s.edge.completes = true ∧ ∃ k, s.inflight = some (.keysched k) ∧ t.sk = derive k) ∨
    (s.busy = false ∧ s.fetch = some .clear ∧ t.sk = ScheduledKey.zero) := by
  cases step_outcome h with
  | reset hr => exact .inr (.inl hr)
  | settled =>
    obtain ⟨hb, hf, hsk, -⟩ | ⟨hsk, -⟩ := afterTransaction_results s
    · exact .inr (.inr (.inr ⟨hb, hf, hsk⟩))
    · exact .inl hsk
  | completed _ hc hb =>
    have hi := afterTransaction_inflight_of_busy hb
    obtain ⟨hsk, -⟩ := afterTransaction_results_of_busy hb
    have completion := completionStep_cases (afterTransaction_busy hb)
    generalize completionStep (afterTransaction s) = t at completion ⊢
    cases completion with
    | keysched k hk => exact .inr (.inr (.inl ⟨hc, k, hi.symm.trans hk, rfl⟩))
    | evolve | encrypt | decrypt => exact .inl hsk

/-- What one step can make of DOUT (R24, R41). -/
theorem step_dout_cases {s t : State} (h : step s = .next t) :
    t.dout = s.dout ∨ s.edge.rst = true ∨
    (s.edge.completes = true ∧ ∃ b, (∃ r g, s.inflight = some (.evolve b r g)) ∨
      s.inflight = some (.encrypt b) ∨ s.inflight = some (.decrypt b)) ∨
    (s.busy = false ∧ s.fetch = some .clear ∧ t.dout = Reg.zero) := by
  cases step_outcome h with
  | reset hr => exact .inr (.inl hr)
  | settled =>
    obtain ⟨hb, hf, -, hdout⟩ | ⟨-, hdout⟩ := afterTransaction_results s
    · exact .inr (.inr (.inr ⟨hb, hf, hdout⟩))
    · exact .inl hdout
  | completed _ hc hb =>
    have hi := afterTransaction_inflight_of_busy hb
    obtain ⟨-, hdout⟩ := afterTransaction_results_of_busy hb
    have completion := completionStep_cases (afterTransaction_busy hb)
    generalize completionStep (afterTransaction s) = t at completion ⊢
    cases completion with
    | keysched => exact .inl hdout
    | evolve b r g hk => exact .inr (.inr (.inl ⟨hc, b, .inl ⟨r, g, hi.symm.trans hk⟩⟩))
    | encrypt b hk => exact .inr (.inr (.inl ⟨hc, b, .inr (.inl (hi.symm.trans hk))⟩))
    | decrypt b hk => exact .inr (.inr (.inl ⟨hc, b, .inr (.inr (hi.symm.trans hk))⟩))

@[simp] theorem completionStep_busyErr (s : State) : (completionStep s).busyErr = s.busyErr := by
  unfold completionStep
  split <;> rfl

/-- Losing a write and completing do not touch each other (R64). -/
theorem completionStep_loseWrite (s : State) :
    completionStep (loseWrite s) = { completionStep s with busyErr := true } := by
  unfold completionStep
  rw [loseWrite_inflight]
  split <;> rfl

/-- Without reset, BUSYERR after the step is what the transaction left: a completion keeps it (R175). -/
theorem step_busyErr {s t : State} (h : step s = .next t) (hr : s.edge.rst = false) :
    t.busyErr = (afterTransaction s).busyErr := by
  cases step_outcome h with
  | reset hr' => exact absurd (hr.symm.trans hr') Bool.false_ne_true
  | settled => rfl
  | completed => exact completionStep_busyErr _

/-- A write to CMD, KEY or DIN is presented at the coming edge. -/
theorem fetch_writesGuarded_iff (s : State) :
    (∃ i, s.fetch = some i ∧ i.writesGuarded = true) ↔
    ∃ x, s.edge.txn = some x ∧ x.we = true ∧ (x.widx = 0x00#5 ∨ (0x04#5 ≤ x.widx ∧ x.widx ≤ 0x0B#5)) := by
  simp only [fetch_eq_some_iff, ← transaction_writesGuarded_iff]
  constructor
  · rintro ⟨i, ⟨x, hx, rfl⟩, hg⟩
    exact ⟨x, hx, hg⟩
  · rintro ⟨x, hx, hg⟩
    exact ⟨x.instr, ⟨x, hx, rfl⟩, hg⟩

/-- When a transaction clears BUSYERR (R31, R173, R174). -/
theorem afterTransaction_clears_busyErr_iff {s : State} (he : s.busyErr = true) :
    (afterTransaction s).busyErr = false ↔
      s.busy = false ∧ (s.fetch = some .nop ∨ s.fetch = some .clear) := by
  have h := afterTransaction_presented s
  generalize afterTransaction s = t at h ⊢
  generalize s.fetch = f at h ⊢
  cases h with
  | nop hb => exact iff_of_true rfl ⟨hb, .inl rfl⟩
  | clear hb => exact iff_of_true rfl ⟨hb, .inr rfl⟩
  | lost i hb =>
    exact iff_of_false nofun fun h => absurd (h.1.symm.trans hb) Bool.false_ne_true
  | kept _ _ hn hc _ hk =>
    exact iff_of_false (by rw [hk.busyErr]; simp [he]) fun h => h.2.elim hn hc

/-- When a transaction sets BUSYERR (R31, R206). -/
theorem afterTransaction_sets_busyErr_iff {s : State} (he : s.busyErr = false) :
    (afterTransaction s).busyErr = true ↔
      s.busy = true ∧ ∃ i, s.fetch = some i ∧ i.writesGuarded = true := by
  have h := afterTransaction_presented s
  generalize afterTransaction s = t at h ⊢
  generalize s.fetch = f at h ⊢
  cases h with
  | nop hb | clear hb =>
    exact iff_of_false Bool.false_ne_true fun h => absurd (hb.symm.trans h.1) Bool.false_ne_true
  | lost i hb hg => exact iff_of_true rfl ⟨hb, i, rfl, hg⟩
  | kept _ _ _ _ hg hk =>
    refine iff_of_false (by rw [hk.busyErr]; simp [he]) ?_
    rintro ⟨hb, i, hi, hgi⟩
    exact absurd ((hg hb i hi).symm.trans hgi) Bool.false_ne_true

/-- The step of a busy block at which a write to CMD, KEY or DIN arrives: the write is lost (R31, R64). -/
theorem step_of_lost_write {s t : State} {i : Instr} (h : step s = .next t) (hr : s.edge.rst = false)
    (hb : s.busy = true) (hf : s.fetch = some i) (hg : i.writesGuarded = true) :
    t = { (if s.edge.completes = true then completionStep (sampleEdge s) else sampleEdge s) with
      busyErr := true } := by
  rw [step_next h, nextState_of_no_rst hr, afterTransaction_of_some hf,
    effect_of_busy_guarded (s := sampleEdge s) hb hg, engineTurn, hb, Bool.and_true]
  split
  · exact completionStep_loseWrite _
  · rfl

end Sys2Proof.Machine
end

section
/-! PROOF. What a step leaves alone: a busy block, the SK file, DOUT and BUSYERR. -/

namespace Sys2Proof.Proofs

open Sys2Proof.Machine

/-- Settles O48: a transaction while BUSY = 1 only drives `rdata` or sets BUSYERR. -/
theorem busyBlockKeepsItsState : Obligations.BusyBlockKeepsItsState := by
  intro s t hb hr hc h
  rw [step_next h, nextState_of_no_rst hr, engineTurn, hc]
  obtain ⟨v, h⟩ | h | h | h := transaction_of_busy (afterTransaction_cases s) hb <;> rw [h] <;> rfl

/-- Settles O49: the cases of `step_sk_cases`, of which a cipher command in flight or written, with no
KEYSCHED in flight, leaves only the first. -/
theorem onlyKeyschedClearAndResetChangeTheSkFile : Obligations.OnlyKeyschedClearAndResetChangeTheSkFile := by
  intro s t h
  have outcome := step_sk_cases h
  refine ⟨outcome.resolve_left, ?_, ?_⟩
  · rintro hr ⟨b, hi⟩
    obtain hsk | hr' | ⟨-, k, hk, -⟩ | ⟨hb, -, -⟩ := outcome
    · exact hsk
    · exact absurd (hr.symm.trans hr') Bool.false_ne_true
    · simp [hk] at hi
    · simp [(not_busy_iff s).mp hb] at hi
  · intro hr hf hi
    obtain hsk | hr' | ⟨-, k, hk, -⟩ | ⟨-, hclear, -⟩ := outcome
    · exact hsk
    · exact absurd (hr.symm.trans hr') Bool.false_ne_true
    · exact absurd hk (hi k)
    · simp [hclear] at hf

/-- Settles O50: the cases of `step_dout_cases` but the one that keeps DOUT. -/
theorem onlyCompletionsClearAndResetChangeDout : Obligations.OnlyCompletionsClearAndResetChangeDout :=
  fun _ _ h hne => (step_dout_cases h).resolve_left hne

/-- Settles O51: without reset BUSYERR is what the transaction leaves; a lost write is `step_of_lost_write`. -/
theorem busyErrIsSetAndClearedOnlyAsStated : Obligations.BusyErrIsSetAndClearedOnlyAsStated := by
  intro s t h
  have after_reset : s.edge.rst = true → t.busyErr = false := fun hr => by
    rw [step_next h, nextState_of_rst hr, resetBlock_busyErr]
  refine ⟨fun he => ?_, fun he => ?_, fun hr hb x hx hwe hidx => ?_⟩
  · cases hr : s.edge.rst with
    | true => simp [after_reset hr]
    | false => rw [step_busyErr h hr, afterTransaction_clears_busyErr_iff he]; simp
  · cases hr : s.edge.rst with
    | true => simp [after_reset hr]
    | false =>
      rw [step_busyErr h hr, afterTransaction_sets_busyErr_iff he, fetch_writesGuarded_iff]; simp
  · obtain ⟨i, hf, hg⟩ := (fetch_writesGuarded_iff s).mpr ⟨x, hx, hwe, hidx⟩
    exact step_of_lost_write h hr hb hf hg

end Sys2Proof.Proofs
end

section
/-! SUPPORT. The control view of each operation is a function of the control view alone: what an operation
makes of STATUS, of the record kind and of the schedule is computed from these (R27, R37). -/

namespace Sys2Proof.Safety

open Sys2Proof.Machine

section Operations

variable (s : State)

theorem controlView_sampleEdge : controlView (sampleEdge s) =
    { controlView s with draws := (controlView s).draws + 1, port := (controlView s).port.tail } := rfl

theorem controlView_resetBlock : controlView (resetBlock s) = resetBlock (controlView s) := rfl

theorem controlView_driveRead (v : Word64) : controlView (driveRead v s) = controlView s := rfl

theorem controlView_driveFree :
    controlView (driveFree s) = { controlView s with draws := (controlView s).draws + 1 } := rfl

theorem controlView_loseWrite : controlView (loseWrite s) = loseWrite (controlView s) := rfl

theorem controlView_storeKey (m : BitVec 2) (d : Word64) : controlView (storeKey m d s) =
    { controlView s with keyValid := setValid (controlView s).keyValid m } := rfl

theorem controlView_storeDin (m : BitVec 2) (d : Word64) : controlView (storeDin m d s) =
    { controlView s with dinValid := setValid (controlView s).dinValid m } := rfl

theorem controlView_raiseError (e : ErrCode) : controlView (raiseError e s) = raiseError e (controlView s) := rfl

theorem controlView_accept (c : InFlight) :
    controlView (accept c s) = accept (withoutOperand c) (controlView s) := by
  cases c <;> rfl

theorem controlView_commandNop : controlView (commandNop s) = commandNop (controlView s) := rfl

theorem controlView_commandClear : controlView (commandClear s) = commandClear (controlView s) := rfl

theorem controlView_busy : (controlView s).busy = s.busy := Option.isSome_map

theorem schedulingKey_controlView : schedulingKey (controlView s) = schedulingKey s := by
  cases hi : s.inflight with
  | none => simp only [schedulingKey, controlView, hi, Option.map_none]
  | some c => cases c <;> simp only [schedulingKey, controlView, hi, Option.map_some, withoutOperand]

/-- A completion sets DONE, and SK_VALID if it is KEYSCHED's (R175). -/
theorem controlView_completionStep {s : State} (hb : s.busy = true) : controlView (completionStep s) =
    { controlView s with
      inflight := none, done := true, skValid := (schedulingKey (controlView s) || (controlView s).skValid) } := by
  have h := completionStep_cases hb
  rw [schedulingKey_controlView]
  generalize completionStep s = t at h ⊢
  cases h with
  | evolve _ _ _ hi | keysched _ hi | encrypt _ hi | decrypt _ hi => simp only [schedulingKey, hi]; rfl

end Operations

section Noninterference

variable {s s' : State} (h : controlView s = controlView s')

include h

/-- What is read off the control view agrees in states of one control view. -/
theorem eq_of_controlView {α : Type} {f : State → α} (hf : ∀ u, f (controlView u) = f u) : f s = f s' := by
  rw [← hf s, h, hf]

theorem busy_eq_of_controlView : s.busy = s'.busy := eq_of_controlView h controlView_busy

theorem keyValid_eq_of_controlView : s.keyValid = s'.keyValid :=
  eq_of_controlView (f := State.keyValid) h fun _ => rfl

theorem dinValid_eq_of_controlView : s.dinValid = s'.dinValid :=
  eq_of_controlView (f := State.dinValid) h fun _ => rfl

theorem skValid_eq_of_controlView : s.skValid = s'.skValid :=
  eq_of_controlView (f := State.skValid) h fun _ => rfl

theorem edge_eq_of_controlView : s.edge = s'.edge := eq_of_controlView (f := State.edge) h fun _ => rfl

theorem fetch_eq_of_controlView : s.fetch = s'.fetch := eq_of_controlView (f := State.fetch) h fun _ => rfl

theorem controlView_sampleEdge_eq : controlView (sampleEdge s) = controlView (sampleEdge s') := by
  rw [controlView_sampleEdge, h, controlView_sampleEdge]

theorem controlView_raiseError_eq (e : ErrCode) :
    controlView (raiseError e s) = controlView (raiseError e s') := by
  rw [controlView_raiseError, h, controlView_raiseError]

theorem controlView_accept_eq {c c' : InFlight} (hc : withoutOperand c = withoutOperand c') :
    controlView (accept c s) = controlView (accept c' s') := by
  rw [controlView_accept, hc, h, controlView_accept]

theorem controlView_commandCipher_eq {record : Reg → InFlight}
    (hrecord : ∀ x y, withoutOperand (record x) = withoutOperand (record y)) :
    controlView (commandCipher record s) = controlView (commandCipher record s') := by
  unfold commandCipher
  rw [dinValid_eq_of_controlView h, skValid_eq_of_controlView h]
  split_ifs
  · exact controlView_accept_eq h (hrecord _ _)
  · exact controlView_raiseError_eq h _
  · exact controlView_raiseError_eq h _

theorem controlView_runCommand_eq (c : Command) :
    controlView (runCommand c s) = controlView (runCommand c s') := by
  cases c with
  | nop => rw [runCommand, controlView_commandNop, h]; rfl
  | clear => rw [runCommand, controlView_commandClear, h]; rfl
  | evolve rule gen =>
    rw [runCommand, runCommand, commandEvolve, commandEvolve, dinValid_eq_of_controlView h]
    split
    · exact controlView_accept_eq h rfl
    · exact controlView_raiseError_eq h _
  | keysched =>
    rw [runCommand, runCommand, commandKeysched, commandKeysched, keyValid_eq_of_controlView h]
    split
    · exact controlView_accept_eq h rfl
    · exact controlView_raiseError_eq h _
  | encrypt | decrypt => exact controlView_commandCipher_eq h fun _ _ => rfl

theorem controlView_commandWord_eq (w : Word64) :
    controlView (commandWord w s) = controlView (commandWord w s') := by
  unfold commandWord
  split
  · exact controlView_runCommand_eq h _
  · exact controlView_raiseError_eq h _

theorem controlView_unlessBusy_eq {f : State → State} (hf : controlView (f s) = controlView (f s')) :
    controlView (unlessBusy f s) = controlView (unlessBusy f s') := by
  unfold unlessBusy
  rw [busy_eq_of_controlView h]
  split
  · rw [controlView_loseWrite, h, controlView_loseWrite]
  · exact hf

theorem controlView_writeReg_eq (r : HostReg) (d : Word64) :
    controlView (writeReg r d s) = controlView (writeReg r d s') := by
  cases r with
  | cmd => exact controlView_unlessBusy_eq h (controlView_commandWord_eq h d)
  | key m => exact controlView_unlessBusy_eq h (by rw [controlView_storeKey, h, controlView_storeKey])
  | din m => exact controlView_unlessBusy_eq h (by rw [controlView_storeDin, h, controlView_storeDin])
  | status | reserved | dout | sk => exact h

theorem controlView_effect_eq (i : Instr) : controlView (effect i s) = controlView (effect i s') := by
  have command : ∀ c, controlView (unlessBusy (runCommand c) s) = controlView (unlessBusy (runCommand c) s') :=
    fun c => controlView_unlessBusy_eq h (controlView_runCommand_eq h c)
  cases i with
  | hread r =>
    rw [effect, effect, busy_eq_of_controlView h]
    split
    · rw [controlView_driveFree, h, controlView_driveFree]
    · rw [controlView_driveRead, h, controlView_driveRead]
  | hwrite r d => exact controlView_writeReg_eq h _ d
  | nop => exact command .nop
  | evolve rule gen => exact command (.evolve rule gen)
  | keysched => exact command .keysched
  | encrypt => exact command .encrypt
  | decrypt => exact command .decrypt
  | clear => exact command .clear

theorem controlView_afterTransaction_eq :
    controlView (afterTransaction s) = controlView (afterTransaction s') := by
  cases hf : s.fetch with
  | none =>
    rw [afterTransaction_of_none hf, afterTransaction_of_none (fetch_eq_of_controlView h ▸ hf)]
    exact controlView_sampleEdge_eq h
  | some i =>
    rw [afterTransaction_of_some hf, afterTransaction_of_some (fetch_eq_of_controlView h ▸ hf)]
    exact controlView_effect_eq (controlView_sampleEdge_eq h) i

theorem controlView_completionStep_eq (hb : s.busy = true) :
    controlView (completionStep s) = controlView (completionStep s') := by
  rw [controlView_completionStep hb, h, controlView_completionStep (busy_eq_of_controlView h ▸ hb)]

theorem controlView_nextState_eq : controlView (nextState s) = controlView (nextState s') := by
  have hedge := edge_eq_of_controlView h
  cases hr : s.edge.rst with
  | true =>
    rw [nextState_of_rst hr, nextState_of_rst (hedge ▸ hr), controlView_resetBlock, controlView_resetBlock,
      controlView_sampleEdge_eq h]
  | false =>
    have after := controlView_afterTransaction_eq h
    rw [nextState_of_no_rst hr, nextState_of_no_rst (hedge ▸ hr), engineTurn, engineTurn, ← hedge,
      ← busy_eq_of_controlView h]
    split
    · next hc =>
      exact controlView_completionStep_eq after (afterTransaction_busy (Bool.and_eq_true_iff.mp hc).2)
    · exact after

end Noninterference

end Sys2Proof.Safety
end

section
/-! PROOF. Control does not depend on data. -/

namespace Sys2Proof.Proofs

open Sys2Proof.Safety

/-- Settles O58: every guard of a step reads the control view alone, and every update of it is a function of
it. -/
theorem controlDoesNotDependOnData : Obligations.ControlDoesNotDependOnData := by
  intro s s' t t' h hs hs'
  rw [Machine.step_next hs, Machine.step_next hs']
  exact controlView_nextState_eq h

end Sys2Proof.Proofs
end

section
/-! SUPPORT. A command word as its five fields: the decoder reads exactly the encoder's words, each legal by R75,
and the port reads what it presents (R70, R72 to R75, R78). -/

namespace Sys2Proof

/-- The word of its five fields (R72). -/
def joinFields (rsv1 : BitVec 16) (gen : BitVec 32) (rule : BitVec 8) (rsv0 op : BitVec 4) : Word64 :=
  (rsv1 ++ gen ++ rule ++ rsv0 ++ op : BitVec (16 + 32 + 8 + 4 + 4))

theorem joinFields_fields (w : Word64) :
    joinFields (rsv1Field w) (genField w) (ruleField w) (rsv0Field w) (opField w) = w := by
  unfold joinFields rsv1Field genField ruleField rsv0Field opField
  rw [BitVec.extractLsb'_append_extractLsb'_eq_extractLsb' (start₁ := 16) (len₁ := 32) rfl,
    BitVec.extractLsb'_append_extractLsb'_eq_extractLsb' (start₁ := 8) (len₁ := 8) rfl,
    BitVec.extractLsb'_append_extractLsb'_eq_extractLsb' (start₁ := 4) (len₁ := 4) rfl,
    BitVec.extractLsb'_append_extractLsb'_eq_extractLsb' (start₁ := 0) (len₁ := 4) rfl]
  exact BitVec.extractLsb'_eq_self

section Fields

variable (rsv1 : BitVec 16) (gen : BitVec 32) (rule : BitVec 8) (rsv0 op : BitVec 4)

@[simp] theorem opField_joinFields : opField (joinFields rsv1 gen rule rsv0 op) = op :=
  BitVec.extractLsb'_append_eq_right

@[simp] theorem rsv0Field_joinFields : rsv0Field (joinFields rsv1 gen rule rsv0 op) = rsv0 := by
  rw [rsv0Field, joinFields, Machine.extractLsb'_append_add (i := 0) 4, BitVec.extractLsb'_append_eq_right]

@[simp] theorem ruleField_joinFields : ruleField (joinFields rsv1 gen rule rsv0 op) = rule := by
  rw [ruleField, joinFields, Machine.extractLsb'_append_add (i := 4) 4,
    Machine.extractLsb'_append_add (i := 0) 4, BitVec.extractLsb'_append_eq_right]

@[simp] theorem genField_joinFields : genField (joinFields rsv1 gen rule rsv0 op) = gen := by
  rw [genField, joinFields, Machine.extractLsb'_append_add (i := 12) 4,
    Machine.extractLsb'_append_add (i := 8) 4, Machine.extractLsb'_append_add (i := 0) 8,
    BitVec.extractLsb'_append_eq_right]

@[simp] theorem rsv1Field_joinFields : rsv1Field (joinFields rsv1 gen rule rsv0 op) = rsv1 := by
  rw [rsv1Field, joinFields, Machine.extractLsb'_append_add (i := 44) 4,
    Machine.extractLsb'_append_add (i := 40) 4, Machine.extractLsb'_append_add (i := 32) 8,
    BitVec.extractLsb'_append_eq_left]

end Fields

/-- The opcode of a command (R74). -/
def Command.op : Command → BitVec 4
  | .nop => 0x0#4
  | .evolve _ _ => 0x1#4
  | .keysched => 0x2#4
  | .encrypt => 0x3#4
  | .decrypt => 0x4#4
  | .clear => 0x5#4

/-- `RULE` of a command, 0 in all but EVOLVE (R72). -/
def Command.rule : Command → BitVec 8
  | .evolve rule _ => rule
  | .nop | .keysched | .encrypt | .decrypt | .clear => 0#8

/-- `GEN` of a command, 0 in all but EVOLVE (R72). -/
def Command.gen : Command → BitVec 32
  | .evolve _ gen => gen
  | .nop | .keysched | .encrypt | .decrypt | .clear => 0#32

theorem encodeCommand_eq_joinFields (c : Command) :
    encodeCommand c = joinFields 0#16 c.gen c.rule 0#4 c.op := by
  cases c <;> rfl

theorem plainCommand_eq_ok_iff {w : Word64} {c d : Command} :
    plainCommand w d = .ok c ↔ (ruleField w = 0#8 ∧ genField w = 0#32) ∧ d = c := by
  unfold plainCommand
  split
  · next h => simp [h]
  · next h => simp [h]

/-- The decoder field by field (R72 to R74). -/
theorem decodeCommand_eq_ok_iff_fields {w : Word64} {c : Command} :
    decodeCommand w = .ok c ↔
      rsv0Field w = 0#4 ∧ rsv1Field w = 0#16 ∧ genField w = c.gen ∧ ruleField w = c.rule ∧ opField w = c.op := by
  constructor
  · intro h
    have plain : ∀ d : Command, d.rule = 0#8 → d.gen = 0#32 → opField w = d.op → plainCommand w d = .ok c →
        genField w = c.gen ∧ ruleField w = c.rule ∧ opField w = c.op := by
      intro d hr hg hop hd
      obtain ⟨⟨hrule, hgen⟩, rfl⟩ := plainCommand_eq_ok_iff.mp hd
      exact ⟨hgen.trans hg.symm, hrule.trans hr.symm, hop⟩
    unfold decodeCommand at h
    split_ifs at h with h0 h1 nop evolve keysched encrypt decrypt clear
    all_goals refine ⟨Decidable.not_not.mp h0, Decidable.not_not.mp h1, ?_⟩
    · exact plain .nop rfl rfl nop h
    · obtain rfl := Except.ok.inj h
      exact ⟨rfl, rfl, evolve⟩
    · exact plain .keysched rfl rfl keysched h
    · exact plain .encrypt rfl rfl encrypt h
    · exact plain .decrypt rfl rfl decrypt h
    · exact plain .clear rfl rfl clear h
  · rintro ⟨h0, h1, hgen, hrule, hop⟩
    cases c <;>
      simp [decodeCommand, plainCommand, h0, h1, hop, hgen, hrule, Command.op, Command.rule, Command.gen]

/-- The words the decoder accepts are the encoder's (R74). -/
theorem decodeCommand_eq_ok_iff {w : Word64} {c : Command} : decodeCommand w = .ok c ↔ encodeCommand c = w := by
  rw [decodeCommand_eq_ok_iff_fields, encodeCommand_eq_joinFields]
  constructor
  · rintro ⟨h0, h1, hgen, hrule, hop⟩
    rw [← h1, ← hgen, ← hrule, ← h0, ← hop, joinFields_fields]
  · rintro rfl
    simp

theorem legalWord_encodeCommand (c : Command) : legalWord (encodeCommand c) = true := by
  cases c with
  | evolve rule gen => simp [legalWord, commandRows, Laws.evolveWord_masked]
  | nop | keysched | encrypt | decrypt | clear => decide

end Sys2Proof

namespace Sys2Proof.Machine

/-- The port reads a presented command word as its command (R78). -/
theorem presented_encodeCommand_instr (c : Command) :
    (presented (.cw (encodeCommand c))).instr = c.toInstr := by
  rw [Transaction.instr, decodePort, decodeTransaction_header]
  simp only [presented, if_true, decodeCommand_eq_ok_iff.mpr rfl]

theorem instr_of_read {x : Transaction} (h : x.we = false) : x.instr = .hread x.widx := by
  obtain ⟨-, hi⟩ | ⟨hwe, -⟩ | ⟨hwe, -⟩ := transaction_instr_cases x
  · exact hi
  all_goals exact absurd (h.symm.trans hwe) Bool.false_ne_true

theorem presented_hread (i : WordIndex) : presented (encode (.hread i)) = ⟨false, i, 0#64⟩ := by
  rw [encode, presented, BitVec.getLsbD_append, BitVec.extractLsb'_append_eq_right]
  rfl

theorem presented_hread_instr (i : WordIndex) : (presented (encode (.hread i))).instr = .hread i := by
  rw [presented_hread]
  exact instr_of_read rfl

theorem presented_hwrite (i : WordIndex) (d : Word64) : presented (encode (.hwrite i d)) = ⟨true, i, d⟩ := by
  rw [encode, presented, BitVec.getLsbD_append, BitVec.extractLsb'_append_eq_right]
  rfl

/-- A write is read back as itself: the port would read it as a command only if its word were legal and its
register CMD (R78). -/
theorem presented_hwrite_instr {i : WordIndex} {d : Word64} (h : (Instr.hwrite i d).wellFormed = true) :
    (presented (encode (.hwrite i d))).instr = .hwrite i d := by
  rw [presented_hwrite, Transaction.instr, decodePort, decodeTransaction_header]
  simp only [if_true, ite_eq_right_iff]
  rintro rfl
  cases hd : decodeCommand d with
  | error e => rfl
  | ok c =>
    rw [← decodeCommand_eq_ok_iff.mp hd, Instr.wellFormed, legalWord_encodeCommand] at h
    exact absurd h (by decide)

/-- The port reads a presented well-formed instruction as that instruction (R70, R71, R78). -/
theorem presented_encode_instr {i : Instr} (h : i.wellFormed = true) : (presented (encode i)).instr = i := by
  cases i with
  | hread i => exact presented_hread_instr i
  | hwrite i d => exact presented_hwrite_instr h
  | nop => exact presented_encodeCommand_instr .nop
  | evolve rule gen => exact presented_encodeCommand_instr (.evolve rule gen)
  | keysched => exact presented_encodeCommand_instr .keysched
  | encrypt => exact presented_encodeCommand_instr .encrypt
  | decrypt => exact presented_encodeCommand_instr .decrypt
  | clear => exact presented_encodeCommand_instr .clear

end Sys2Proof.Machine
end

section
/-! SUPPORT. What HREAD and a write to a read-only register leave alone, and the completion step beside the
port's own fields (R57, R58, R175). -/

namespace Sys2Proof.Machine

theorem isResult_iff (i : WordIndex) : (hostReg i).isResult = true ↔ 0x0C#5 ≤ i := by
  revert i; decide

/-- STATUS, the reserved indices, DOUT and SK are the registers BUSY does not guard (R31, R58). -/
theorem isGuarded_eq_false_iff (i : WordIndex) :
    (hostReg i).isGuarded = false ↔ (0x01#5 ≤ i ∧ i ≤ 0x03#5) ∨ 0x0C#5 ≤ i := by
  revert i; decide

theorem writeReg_of_not_guarded {r : HostReg} (d : Word64) (s : State) (h : r.isGuarded = false) :
    writeReg r d s = s := by
  cases r with
  | cmd | key | din => exact absurd h.symm Bool.false_ne_true
  | status | reserved | dout | sk => rfl

/-- What the port drives is no register's content. -/
@[simp] theorem driveRead_readReg (v : Word64) (s : State) (r : HostReg) :
    (driveRead v s).readReg r = s.readReg r := by
  cases r <;> rfl

theorem effect_hread_of_free {i : WordIndex} {s : State} (h : s.busy = true ∧ 0x0C#5 ≤ i) :
    effect (.hread i) s = driveFree s := by
  rw [← isResult_iff, ← Bool.and_eq_true] at h
  exact if_pos h

theorem effect_hread_of_specified {i : WordIndex} {s : State} (h : ¬ (s.busy = true ∧ 0x0C#5 ≤ i)) :
    effect (.hread i) s = driveRead (s.readReg (hostReg i)) s := by
  rw [← isResult_iff, ← Bool.and_eq_true] at h
  exact if_neg h

/-- The completion step reads none of the port's own fields and carries them along (R61, R175). -/
theorem completionStep_setPort (s : State) (v : Word64) (n : Nat) (p : List ClockEdge) :
    completionStep { s with rdata := v, draws := n, port := p } =
      { completionStep s with rdata := v, draws := n, port := p } := by
  cases hi : s.inflight with
  | none => simp only [completionStep, hi]
  | some c => cases c with
    | evolve | keysched | encrypt | decrypt => simp only [completionStep, hi]; rfl

@[simp] theorem completionStep_rdata (s : State) : (completionStep s).rdata = s.rdata := by
  unfold completionStep
  split <;> rfl

@[simp] theorem completionStep_busy (s : State) : (completionStep s).busy = false := by
  unfold completionStep
  split
  · next hi => exact (not_busy_iff s).mpr hi
  all_goals rfl

theorem completionStep_of_idle {s : State} (hb : s.busy = false) : completionStep s = s := by
  rw [completionStep, (not_busy_iff s).mp hb]

/-- Without a command in flight the completion step is disabled, so only its occurrence counts (R175). -/
theorem engineTurn_sampleEdge (s : State) : engineTurn s (sampleEdge s) =
    if s.edge.completes = true then completionStep (sampleEdge s) else sampleEdge s := by
  cases hb : s.busy with
  | true => rw [engineTurn, hb, Bool.and_true]
  | false =>
    rw [engineTurn, hb, Bool.and_false, completionStep_of_idle (s := sampleEdge s) hb,
      if_neg Bool.false_ne_true, ite_self]

/-- At an edge where a command completes, the step is the transaction and then the completion (R64). -/
theorem step_of_completion {s : State} {i : Instr} (hr : s.edge.rst = false) (hc : s.edge.completes = true)
    (hb : s.busy = true) (hf : s.fetch = some i) :
    step s = .next (completionStep (effect i (sampleEdge s))) := by
  rw [step_eq_nextState, nextState_of_no_rst hr, afterTransaction_of_some hf, engineTurn, hc, hb]
  rfl

end Sys2Proof.Machine
end

section
/-! PROOF. The port and the register space: what reads, dropped writes, idle edges and shared edges do. -/

namespace Sys2Proof.Proofs

open Sys2Proof.Machine

/-- Settles O46: the step is the transaction and then the completion; a write of BUSY = 1 is lost, and a read of
STATUS drives the word whose bit 0 is the BUSY of before. -/
theorem transactionPrecedesCompletion : Obligations.TransactionPrecedesCompletion := by
  intro s x hx hb
  have hf : s.fetch = some x.instr := fetch_eq_some_iff.mpr ⟨x, hx, rfl⟩
  refine ⟨fun hr hc => ⟨⟨_, exec_eq_effect _ _, step_of_completion hr hc hb hf⟩, fun hwe hidx => ?write,
    fun hwe hidx => ?status⟩, fun hr => by rw [step_eq_nextState, nextState_of_rst hr]⟩
  case write =>
    have hg := (transaction_writesGuarded_iff x).mpr ⟨hwe, hidx⟩
    have hlost := step_of_lost_write (step_eq_nextState s) hr hb hf hg
    rw [step_eq_nextState, hlost, if_pos hc]
  case status =>
    obtain ⟨hbusy, -⟩ := statusWordHoldsEachField (sampleEdge s)
    refine ⟨_, step_of_completion hr hc hb hf, ?_, completionStep_busy _⟩
    rw [instr_of_read hwe, hidx, completionStep_rdata,
      effect_hread_of_specified (fun ⟨_, hresult⟩ => absurd hresult (by decide)), driveRead_rdata]
    exact hbusy.trans hb

/-- Settles O9: a read drives `rdata` alone; unless it is free, its value is no part of what a read reads. -/
theorem hreadHasNoSideEffect : Obligations.HreadHasNoSideEffect := by
  intro i s
  refine ⟨_, exec_eq_effect _ s, ?_, fun h => ?_⟩
  · by_cases h : s.busy = true ∧ 0x0C#5 ≤ i
    · rw [effect_hread_of_free h]; rfl
    · rw [effect_hread_of_specified h]; rfl
  · have again := effect_hread_of_specified (s := driveRead (s.readReg (hostReg i)) s) h
    rw [exec_eq_effect, effect_hread_of_specified h, again, driveRead_readReg]
    rfl

/-- Settles O14: these indices are the ones BUSY does not guard, and no write reaches their registers. -/
theorem writesToReadOnlyIndicesAreDropped : Obligations.WritesToReadOnlyIndicesAreDropped := by
  intro s i d h
  rw [exec_eq_effect, effect, writeReg_of_not_guarded d s ((isGuarded_eq_false_iff i).mpr h)]

/-- Settles O42: the port reads the presented form back as the instruction, and the engine's turn follows its
meaning. -/
theorem stepRunsThePresentedInstruction : Obligations.StepRunsThePresentedInstruction := by
  rintro s i f hi rfl hr htx
  have hf : s.fetch = some i := fetch_eq_some_iff.mpr ⟨_, htx, presented_encode_instr hi⟩
  refine ⟨_, exec_eq_effect i (sampleEdge s), ?_⟩
  rw [step_eq_nextState, nextState_of_no_rst hr, afterTransaction_of_some hf, engineTurn]
  simp only [Bool.and_eq_true]

/-- Settles O43: only the completion step follows the sampling of the edge, and it does not see the port. -/
theorem idleEdgeOnlyCompletes : Obligations.IdleEdgeOnlyCompletes := by
  intro s hr htx
  have hf : s.fetch = none := Option.map_eq_none_iff.mpr htx
  refine ⟨_, step_eq_nextState s, ?_⟩
  rw [nextState_of_no_rst hr, afterTransaction_of_none hf, engineTurn_sampleEdge]
  split
  · exact (completionStep_setPort (sampleEdge s) s.rdata s.draws s.port).symm
  · rfl

end Sys2Proof.Proofs
end

section
/-! SUPPORT. The legal words of R75: as the encoder's words, by their patterns and by the formula; and a command as
the write of its word to CMD (R72, R75, R78). -/

namespace Sys2Proof

theorem decode_header (x : Machine.Transaction) :
    decode (.ht x.header x.wdata) = .ok (if x.we then .hwrite x.widx x.wdata else .hread x.widx) := by
  rw [decode, Machine.decodeTransaction_header]

theorem decode_encodeCommand (c : Command) : decode (.cw (encodeCommand c)) = .ok c.toInstr := by
  rw [decode, decodeCommand_eq_ok_iff.mpr rfl]
  rfl

theorem exists_decodeCommand_iff (w : Word64) : (∃ c, decodeCommand w = .ok c) ↔ ∃ c, encodeCommand c = w := by
  simp only [decodeCommand_eq_ok_iff]

theorem encodeCommand_evolve_of_fields {w : Word64} (hop : opField w = 0x1#4) (hrsv0 : rsv0Field w = 0#4)
    (hrsv1 : rsv1Field w = 0#16) : encodeCommand (.evolve (ruleField w) (genField w)) = w :=
  decodeCommand_eq_ok_iff.mp (decodeCommand_eq_ok_iff_fields.mpr ⟨hrsv0, hrsv1, rfl, rfl, hop⟩)

/-- EVOLVE's pattern fixes `OP`, `RSV0` and `RSV1` and leaves `RULE` and `GEN` free (R75). -/
theorem encodeCommand_evolve_of_pattern {w : Word64} (h : w &&& 0xFFFF0000000000FF#64 = 0x1#64) :
    encodeCommand (.evolve (ruleField w) (genField w)) = w := by
  have masked : ∀ start len, w.extractLsb' start len &&& (0xFFFF0000000000FF#64).extractLsb' start len =
      (0x1#64).extractLsb' start len := fun start len => by rw [← BitVec.extractLsb'_and, h]
  have hop : opField w = 0x1#4 := BitVec.and_allOnes.symm.trans (masked 0 4)
  have hrsv0 : rsv0Field w = 0#4 := BitVec.and_allOnes.symm.trans (masked 4 4)
  have hrsv1 : rsv1Field w = 0#16 := BitVec.and_allOnes.symm.trans (masked 48 16)
  exact encodeCommand_evolve_of_fields hop hrsv0 hrsv1

/-- A word has one of the patterns of R75 exactly when it is the word of a command. -/
theorem legalWord_iff_encodeCommand (w : Word64) : legalWord w = true ↔ ∃ c, encodeCommand c = w := by
  constructor
  · have whole : ∀ p : Word64, w &&& 0xFFFFFFFFFFFFFFFF#64 = p → p = w := fun p h =>
      h.symm.trans BitVec.and_allOnes
    simp only [legalWord, commandRows, List.any_cons, List.any_nil, Bool.or_false, Bool.or_eq_true, beq_iff_eq]
    rintro (nop | evolve | keysched | encrypt | decrypt | clear)
    · exact ⟨.nop, whole _ nop⟩
    · exact ⟨_, encodeCommand_evolve_of_pattern evolve⟩
    · exact ⟨.keysched, whole _ keysched⟩
    · exact ⟨.encrypt, whole _ encrypt⟩
    · exact ⟨.decrypt, whole _ decrypt⟩
    · exact ⟨.clear, whole _ clear⟩
  · rintro ⟨c, rfl⟩
    exact legalWord_encodeCommand c

theorem legalWord_of_decode_error {w : Word64} {e : DecodeError} (h : decodeCommand w = .error e) :
    legalWord w = false := by
  rw [Bool.eq_false_iff, Ne, legalWord_iff_encodeCommand, ← exists_decodeCommand_iff, h]
  rintro ⟨c, hc⟩
  cases hc

/-- The formula of R75: EVOLVE with its reserved bits 0, or another opcode with every other bit 0. -/
theorem encodeCommand_iff_formula (w : Word64) : (∃ c, encodeCommand c = w) ↔
    (opField w = 0x1#4 ∧ rsv0Field w = 0#4 ∧ rsv1Field w = 0#16) ∨
      (opField w ∈ [0x0#4, 0x2#4, 0x3#4, 0x4#4, 0x5#4] ∧ w.extractLsb' 4 60 = 0#60) := by
  constructor
  · rintro ⟨c, rfl⟩
    cases c with
    | evolve rule gen => exact .inl (by simp [encodeCommand_eq_joinFields, Command.op])
    | nop | keysched | encrypt | decrypt | clear => exact .inr (by decide)
  · rintro (⟨hop, hrsv0, hrsv1⟩ | ⟨hop, hrest⟩)
    · exact ⟨_, encodeCommand_evolve_of_fields hop hrsv0 hrsv1⟩
    · have hw : (0#60 ++ opField w : BitVec (60 + 4)) = w := by
        rw [← hrest, opField, BitVec.extractLsb'_append_extractLsb'_eq_extractLsb' (start₁ := 0) (len₁ := 4) rfl]
        exact BitVec.extractLsb'_eq_self
      rw [← hw]
      generalize opField w = op at hop
      simp only [List.mem_cons, List.not_mem_nil, or_false] at hop
      obtain rfl | rfl | rfl | rfl | rfl := hop
      · exact ⟨.nop, rfl⟩
      · exact ⟨.keysched, rfl⟩
      · exact ⟨.encrypt, rfl⟩
      · exact ⟨.decrypt, rfl⟩
      · exact ⟨.clear, rfl⟩

/-- Two patterns that differ where both masks look share no word. -/
theorem CommandRow.disjoint_of_ne {a b : CommandRow} (h : a.pattern &&& b.mask ≠ b.pattern &&& a.mask)
    (w : Word64) : ¬ (w &&& a.mask = a.pattern ∧ w &&& b.mask = b.pattern) := by
  rintro ⟨ha, hb⟩
  rw [← ha, ← hb] at h
  exact h (by ac_rfl)

@[simp] theorem Command.toInstr_wellFormed (c : Command) : c.toInstr.wellFormed = true := by
  cases c <;> rfl

end Sys2Proof

namespace Sys2Proof.Machine

theorem commandWord_encodeCommand (c : Command) (s : State) :
    commandWord (encodeCommand c) s = runCommand c s := by
  rw [commandWord, decodeCommand_eq_ok_iff.mpr rfl]

theorem effect_toInstr (c : Command) (s : State) : effect c.toInstr s = unlessBusy (runCommand c) s := by
  cases c <;> rfl

/-- What the port reads is never the raw write of a legal word to CMD (R78). -/
theorem transaction_instr_wellFormed (x : Transaction) : x.instr.wellFormed = true := by
  obtain ⟨-, hi⟩ | ⟨-, -, c, hi⟩ | ⟨-, hi, hillegal⟩ := transaction_instr_cases x
  · rw [hi]; rfl
  · rw [hi, c.toInstr_wellFormed]
  · rw [hi, Instr.wellFormed]
    by_cases hidx : x.widx = 0#5
    · obtain ⟨e, he⟩ := hillegal hidx
      simp [legalWord_of_decode_error he]
    · simp [hidx]

end Sys2Proof.Machine
end

section
/-! PROOF. The encoding: instructions and command words there and back, the legal words, and the port. -/

namespace Sys2Proof.Proofs

open Sys2Proof.Machine

/-- Settles O2: a transaction by its header, a command by its word. -/
theorem decodeOfEncodeIsTheInstruction : Obligations.DecodeOfEncodeIsTheInstruction := by
  intro i
  cases i with
  | hread i => exact decode_header ⟨false, i, 0#64⟩
  | hwrite i d => exact decode_header ⟨true, i, d⟩
  | nop => exact decode_encodeCommand .nop
  | evolve rule gen => exact decode_encodeCommand (.evolve rule gen)
  | keysched => exact decode_encodeCommand .keysched
  | encrypt => exact decode_encodeCommand .encrypt
  | decrypt => exact decode_encodeCommand .decrypt
  | clear => exact decode_encodeCommand .clear

/-- Settles O3: the decoder, the formula and the patterns each pick out the encoder's words; any two patterns differ
where both masks look. -/
theorem decoderAcceptsExactlyLegalWords : Obligations.DecoderAcceptsExactlyLegalWords := by
  refine ⟨fun w => ⟨?formula, ?patterns⟩, ?disjoint⟩
  case formula => exact (exists_decodeCommand_iff w).trans (encodeCommand_iff_formula w)
  case patterns => exact (exists_decodeCommand_iff w).trans (legalWord_iff_encodeCommand w).symm
  case disjoint =>
    have differ : commandRows.Pairwise fun a b => a.pattern &&& b.mask ≠ b.pattern &&& a.mask := by decide
    exact differ.imp CommandRow.disjoint_of_ne

/-- Settles O4: the words the decoder accepts are the encoder's. -/
theorem eachCommandHasOneWord : Obligations.EachCommandHasOneWord :=
  fun _ _ => decodeCommand_eq_ok_iff.mp

/-- Settles O5: the port reads a presented form back, and reads every legal word on CMD as its command. -/
theorem portCarriesWellFormedInstructions : Obligations.PortCarriesWellFormedInstructions := by
  refine ⟨?_, transaction_instr_wellFormed⟩
  rintro i f hi rfl
  exact presented_encode_instr hi

/-- Settles O6: the word written to CMD is decoded to the command, and BUSY guards both alike. -/
theorem commandIsTheWriteOfItsWord : Obligations.CommandIsTheWriteOfItsWord := by
  intro c s
  have hcmd : hostReg 0x00#5 = .cmd := (hostReg_eq_cmd_iff _).mpr rfl
  rw [exec_eq_effect, exec_eq_effect, effect_toInstr, effect, hcmd, writeReg,
    funext (commandWord_encodeCommand c)]

/-- Settles O1: the legal examples are encodings, written out; the illegal ones are refused by evaluation. -/
theorem writtenEncodingsDecode : Obligations.WrittenEncodingsDecode :=
  have back := decodeOfEncodeIsTheInstruction
  ⟨back (.hwrite 0x04#5 0xa59535d07e192f12#64), back (.hread 0x01#5), back (.hread 0x1F#5), back .nop,
    back (.evolve 0x1E#8 1#32), back (.evolve 0xFF#8 0xFFFFFFFF#32), back .keysched, back .encrypt, back .decrypt,
    back .clear, rfl, rfl, rfl, rfl⟩

end Sys2Proof.Proofs
end

section
/-! SUPPORT. A generation bit by bit, its symmetry under rotation, and what iterating it keeps (R101, R102, R107). -/

namespace Sys2Proof.Machine

/-- The neighbourhood value of R101, from the left neighbour, the centre and the right neighbour. -/
def neighbourhoodValue (l c r : Bool) : Nat := 4 * l.toNat + 2 * c.toNat + r.toNat

/-- The bit of the eight terms' union: only the term of the neighbourhood value itself can be set. -/
theorem ruleTerms_select (t : BitVec 8) (l c r : Bool) {u : Nat → Bool}
    (hu : ∀ n, u n = (t.getLsbD n && ((n.testBit 2 == l) && (n.testBit 1 == c) && (n.testBit 0 == r)))) :
    (u 0 || u 1 || u 2 || u 3 || u 4 || u 5 || u 6 || u 7) = t.getLsbD (neighbourhoodValue l c r) := by
  simp only [hu]
  cases l <;> cases c <;> cases r <;> simp [neighbourhoodValue, Nat.testBit]

/-- A generation on the value view: the left neighbours stand in `rotr256(X, 1)`, the right ones in `rotl256(X, 1)`
(R101, R103). -/
theorem generation_bit (t : BitVec 8) (x : Wide) {i : Nat} (hi : i < 256) :
    (generation t x).getLsbD i = t.getLsbD (neighbourhoodValue
      ((x.rotateRight 1).getLsbD i) (x.getLsbD i) ((x.rotateLeft 1).getLsbD i)) := by
  simp only [generation, BitVec.getLsbD_or]
  refine ruleTerms_select t _ _ _ (u := fun n => (ruleTerm t x n).getLsbD i) fun n => ?_
  rw [ruleTerm_bit t x n hi, rotateRight_bit x 1 hi, rotateLeft_bit x 1 hi]

/-- A rule table that is the Boolean function `f` gives every generation by `f`. -/
theorem generation_eq_of_table {t : BitVec 8} {f : Bool → Bool → Bool → Bool} {x y : Wide}
    (ht : ∀ l c r, t.getLsbD (neighbourhoodValue l c r) = f l c r)
    (hy : ∀ i, i < 256 →
      y.getLsbD i = f ((x.rotateRight 1).getLsbD i) (x.getLsbD i) ((x.rotateLeft 1).getLsbD i)) :
    generation t x = y :=
  BitVec.eq_of_getLsbD_eq fun i hi => by rw [generation_bit t x hi, ht, hy i hi]

/-- Rule 30: "output = left XOR (center OR right)" (R103). -/
theorem rule30_getLsbD (l c r : Bool) : (0x1E#8).getLsbD (neighbourhoodValue l c r) = (l ^^ (c || r)) := by
  revert l c r; decide

theorem generation_rule30 (x : Wide) : generation 0x1E#8 x = x.rotateRight 1 ^^^ (x ||| x.rotateLeft 1) :=
  generation_eq_of_table rule30_getLsbD fun i _ => by rw [BitVec.getLsbD_xor, BitVec.getLsbD_or]

/-- A position on the ring, as `cell` counts it, read around either end (R9). -/
theorem cell_mod (x : Wide) (i : Nat) : cell x (i % 256) = cell x i := by
  rw [cell, cell, Nat.mod_mod]

theorem cell_generation (t : BitVec 8) (x : Wide) (i : Nat) : cell (generation t x) i =
    t.getLsbD (neighbourhoodValue (cell x (i + 255)) (cell x i) (cell x (i + 1))) := by
  have left : (255 - i % 256 + 1) % 256 = 255 - (i + 255) % 256 := by omega
  have right : (255 - i % 256 + (256 - 1 % 256)) % 256 = 255 - (i + 1) % 256 := by omega
  have hi : 255 - i % 256 < 256 := by omega
  simp only [cell]
  rw [generation_bit t x hi, rotateRight_bit x 1 hi, rotateLeft_bit x 1 hi, left, right]

/-- R101 treats every position alike on the ring (R107). -/
theorem generation_rotateRight (t : BitVec 8) (x : Wide) (n : Nat) :
    generation t (x.rotateRight n) = (generation t x).rotateRight n := by
  apply BitVec.eq_of_getLsbD_eq
  intro i hi
  have hin : (i + n) % 256 < 256 := Nat.mod_lt _ (by decide)
  have left : ((i + 1) % 256 + n) % 256 = ((i + n) % 256 + 1) % 256 := by omega
  have right : ((i + (256 - 1 % 256)) % 256 + n) % 256 = ((i + n) % 256 + (256 - 1 % 256)) % 256 := by omega
  have hmod : ∀ k, k % 256 < 256 := fun k => Nat.mod_lt k (by decide)
  rw [rotateRight_bit _ n hi, generation_bit _ _ hi, generation_bit _ _ hin, rotateRight_bit _ 1 hi,
    rotateRight_bit _ 1 hin, rotateLeft_bit _ 1 hi, rotateLeft_bit _ 1 hin, rotateRight_bit _ n hi,
    rotateRight_bit _ n (hmod _), rotateRight_bit _ n (hmod _), left, right]

@[simp] theorem evolve_zero (x : Wide) (t : BitVec 8) : evolve x t 0 = x := rfl

/-- The last generation is applied to the result of those before (R102). -/
theorem evolve_succ (x : Wide) (t : BitVec 8) (g : Nat) : evolve x t (g + 1) = generation t (evolve x t g) := by
  induction g generalizing x with
  | zero => rfl
  | succ g ih => exact ih (generation t x)

theorem evolve_evolve (x : Wide) (t : BitVec 8) (a b : Nat) : evolve (evolve x t a) t b = evolve x t (a + b) := by
  induction b with
  | zero => rfl
  | succ b ih => rw [evolve_succ, ih, ← Nat.add_assoc, evolve_succ]

theorem evolve_rotateRight (x : Wide) (t : BitVec 8) (g n : Nat) :
    evolve (x.rotateRight n) t g = (evolve x t g).rotateRight n := by
  induction g with
  | zero => rfl
  | succ g ih => rw [evolve_succ, evolve_succ, ih, generation_rotateRight]

theorem evolve_keeps_period {x : Wide} {n : Nat} (h : x.rotateRight n = x) (t : BitVec 8) (g : Nat) :
    (evolve x t g).rotateRight n = evolve x t g := by
  rw [← evolve_rotateRight, h]

theorem evolve_of_fixed {t : BitVec 8} {x : Wide} (h : generation t x = x) (g : Nat) : evolve x t g = x := by
  induction g with
  | zero => rfl
  | succ g ih => rw [evolve_succ, ih, h]

/-- Equal halves are the period 128 (R107, law 3). -/
theorem hi128_eq_lo128_iff (x : Wide) : hi128 x = lo128 x ↔ x.rotateRight 128 = x := by
  constructor
  · intro h
    have half : ∀ i, i < 128 → x.getLsbD (128 + i) = x.getLsbD i := fun i hi => by
      rw [← hi128_getLsbD x i hi, h, lo128_getLsbD x i hi]
    apply BitVec.eq_of_getLsbD_eq
    intro i hi
    rw [rotateRight_bit x 128 hi]
    by_cases low : i < 128
    · rw [show (i + 128) % 256 = 128 + i by omega, half i low]
    · rw [show (i + 128) % 256 = i - 128 by omega, ← half (i - 128) (by omega),
        show 128 + (i - 128) = i by omega]
  · intro h
    apply BitVec.eq_of_getLsbD_eq
    intro i hi
    have turned : (x.rotateRight 128).getLsbD (128 + i) = x.getLsbD i := by
      rw [rotateRight_bit x 128 (by omega), show (128 + i + 128) % 256 = i by omega]
    rw [hi128_getLsbD x i hi, lo128_getLsbD x i hi, ← turned, h]

/-- Rule 30 spreads a single cell: it lights as left neighbour, as centre or as right neighbour, and on a ring of 256
never as two of them at once (R107). -/
theorem generation_rule30_single {x : Wide} {p : Nat} (hp : p < 256)
    (hx : ∀ i, i < 256 → cell x i = decide (i = p)) {i : Nat} (hi : i < 256) :
    cell (generation 0x1E#8 x) i = decide (i = (p + 255) % 256 ∨ i = p ∨ i = (p + 1) % 256) := by
  have hcell : ∀ k, cell x k = decide (k % 256 = p) := fun k => by
    rw [← cell_mod, hx _ (Nat.mod_lt k (by decide))]
  have left : decide ((i + 255) % 256 = p) = decide (i = (p + 1) % 256) := decide_eq_decide.mpr (by omega)
  have right : decide ((i + 1) % 256 = p) = decide (i = (p + 255) % 256) := decide_eq_decide.mpr (by omega)
  have apart : i = (p + 1) % 256 → i ≠ p ∧ i ≠ (p + 255) % 256 := by omega
  rw [cell_generation, rule30_getLsbD, hcell, hcell, hcell, Nat.mod_eq_of_lt hi, left, right, Bool.decide_or,
    Bool.decide_or]
  by_cases lit : i = (p + 1) % 256
  · obtain ⟨notCentre, notRight⟩ := apart lit
    rw [decide_eq_true lit, decide_eq_false notCentre, decide_eq_false notRight]
    rfl
  · rw [decide_eq_false lit, Bool.false_xor, Bool.or_false, Bool.or_comm]

end Sys2Proof.Machine
end

section
/-! SUPPORT. The limbs of a register rotated by one place: shifts with the boundary bit threaded from the neighbouring
limb (R104). -/

namespace Sys2Proof.Machine

/-- `Lw` of R104: bit `b` is the left neighbour of limb `m`'s bit `b`. -/
def leftLimb (x : Reg) (m : BitVec 2) : Word64 := (x.limb m >>> 1) ||| (x.limb (m - 1#2) <<< 63)

/-- `Rw` of R104: bit `b` is the right neighbour of limb `m`'s bit `b`. -/
def rightLimb (x : Reg) (m : BitVec 2) : Word64 := (x.limb m <<< 1) ||| (x.limb (m + 1#2) >>> 63)

theorem limb_bit (x : Reg) (m : BitVec 2) {b : Nat} (hb : b < 64) :
    (x.limb m).getLsbD b = x.val.getLsbD (64 * (3 - m.toNat) + b) := by
  rw [← limb_ofVal_bit x.val m hb, Reg.ofVal_val]

theorem leftLimb_bit (x : Reg) (m : BitVec 2) {b : Nat} (hb : b < 64) :
    (leftLimb x m).getLsbD b = (x.val.rotateRight 1).getLsbD (64 * (3 - m.toNat) + b) := by
  have hm : m.toNat < 4 := m.isLt
  rw [rotateRight_bit _ 1 (by omega), leftLimb, BitVec.getLsbD_or, BitVec.getLsbD_ushiftRight,
    BitVec.getLsbD_shiftLeft]
  by_cases highest : b = 63
  · have hprev : 64 * (3 - (m - 1#2).toNat) + 0 = (64 * (3 - m.toNat) + 63 + 1) % 256 := by
      rcases bv2_cases m with rfl | rfl | rfl | rfl <;> rfl
    subst highest
    rw [BitVec.getLsbD_of_ge _ _ (by decide), Bool.false_or, ← hprev, ← limb_bit x _ (by decide)]
    simp
  · rw [show (64 * (3 - m.toNat) + b + 1) % 256 = 64 * (3 - m.toNat) + (1 + b) by omega,
      ← limb_bit x m (by omega)]
    simp [show b < 63 by omega]

theorem rightLimb_bit (x : Reg) (m : BitVec 2) {b : Nat} (hb : b < 64) :
    (rightLimb x m).getLsbD b = (x.val.rotateLeft 1).getLsbD (64 * (3 - m.toNat) + b) := by
  have hm : m.toNat < 4 := m.isLt
  rw [rotateLeft_bit _ 1 (by omega), rightLimb, BitVec.getLsbD_or, BitVec.getLsbD_ushiftRight,
    BitVec.getLsbD_shiftLeft]
  by_cases lowest : b = 0
  · have hnext : 64 * (3 - (m + 1#2).toNat) + 63 = (64 * (3 - m.toNat) + 0 + (256 - 1 % 256)) % 256 := by
      rcases bv2_cases m with rfl | rfl | rfl | rfl <;> rfl
    subst lowest
    rw [← hnext, ← limb_bit x _ (by decide)]
    simp
  · rw [show (64 * (3 - m.toNat) + b + (256 - 1 % 256)) % 256 = 64 * (3 - m.toNat) + (b - 1) by omega,
      ← limb_bit x m (by omega), BitVec.getLsbD_of_ge _ (63 + b) (by omega)]
    simp [hb, lowest]

theorem generation_limb_bit (t : BitVec 8) (x : Reg) (m : BitVec 2) {b : Nat} (hb : b < 64) :
    ((Reg.ofVal (generation t x.val)).limb m).getLsbD b = t.getLsbD (neighbourhoodValue
      ((leftLimb x m).getLsbD b) ((x.limb m).getLsbD b) ((rightLimb x m).getLsbD b)) := by
  have hm : m.toNat < 4 := m.isLt
  rw [limb_ofVal_bit _ m hb, generation_bit t _ (by omega), leftLimb_bit x m hb, limb_bit x m hb,
    rightLimb_bit x m hb]

theorem generation_rule30_limb (x : Reg) (m : BitVec 2) :
    (Reg.ofVal (generation 0x1E#8 x.val)).limb m = leftLimb x m ^^^ (x.limb m ||| rightLimb x m) :=
  BitVec.eq_of_getLsbD_eq fun b hb => by
    rw [generation_limb_bit _ x m hb, rule30_getLsbD, BitVec.getLsbD_xor, BitVec.getLsbD_or]

end Sys2Proof.Machine
end

section
/-! SUPPORT. EVOLVE's acceptance and its completion step (R108, R172, R175). -/

namespace Sys2Proof.Machine

theorem exec_evolve_accepted {s : State} (rule : BitVec 8) (gen : BitVec 32) (hb : s.busy = false)
    (hv : s.dinValid = allValid) : exec (.evolve rule gen) s = .next (accept (.evolve s.din rule gen) s) := by
  rw [exec_eq_effect, effect, unlessBusy_of_idle _ hb, commandEvolve, if_pos hv]

theorem completionStep_of_evolve {s : State} {x : Reg} {rule : BitVec 8} {gen : BitVec 32}
    (h : s.inflight = some (.evolve x rule gen)) : completionStep s = finishBlock (evolveResult x rule gen) s := by
  rw [completionStep, h]

/-- No generations are the identity (R102, R108). -/
@[simp] theorem evolveResult_zero (x : Reg) (rule : BitVec 8) : evolveResult x rule 0#32 = x := by
  rw [evolveResult, BitVec.toNat_zero, evolve_zero, Reg.ofVal_val]

end Sys2Proof.Machine
end

section
/-! PROOF. The CA Rule Engine and the EVOLVE command. -/

namespace Sys2Proof.Proofs

open Sys2Proof.Machine

/-- Settles O27: the generation's cells, read at their bits of the value view. -/
theorem generationFollowsTheCellRule : Obligations.GenerationFollowsTheCellRule :=
  fun t x i _ => cell_generation t x i

/-- Settles O28: the model takes the generation first and recurses; by induction it may as well come last. -/
theorem evolveAppliesGenerationsInTurn : Obligations.EvolveAppliesGenerationsInTurn :=
  fun x t => ⟨evolve_zero x t, evolve_succ x t⟩

/-- Settles O30: each threaded shift is a limb of the register rotated by one place. -/
theorem generationThreadsLimbBoundaries : Obligations.GenerationThreadsLimbBoundaries :=
  fun t x m => ⟨fun _ hb => generation_limb_bit t x m hb, generation_rule30_limb x m⟩

/-- Settles O31: each table is a Boolean function of the three neighbours. -/
theorem namedRuleTablesActAsStated : Obligations.NamedRuleTablesActAsStated := by
  refine ⟨rfl, fun x => ⟨?centre, ?left, ?right, ?zeros, ?ones⟩⟩
  case centre => exact generation_eq_of_table (f := fun _ c _ => c) (by decide) fun _ _ => rfl
  case left => exact generation_eq_of_table (f := fun l _ _ => l) (by decide) fun _ _ => rfl
  case right => exact generation_eq_of_table (f := fun _ _ r => r) (by decide) fun _ _ => rfl
  case zeros => exact generation_eq_of_table (f := fun _ _ _ => false) (by decide) fun _ _ => BitVec.getLsbD_zero
  case ones =>
    exact generation_eq_of_table (f := fun _ _ _ => true) (by decide) fun i hi => by
      rw [BitVec.getLsbD_allOnes, decide_eq_true hi]

/-- Settles O32: a generation commutes with rotation, so evolution does, and periods are kept, equal halves being one;
the laws of rule 30 are about one generation. -/
theorem ruleEngineObeysItsLaws : Obligations.RuleEngineObeysItsLaws := by
  refine ⟨evolve_rotateRight, evolve_evolve, fun x t g n h => evolve_keeps_period h t g, ?halves, ?zero, ?ones,
    fun x p hp hx i hi => generation_rule30_single hp hx hi⟩
  case halves =>
    intro x t g h
    exact (hi128_eq_lo128_iff _).mpr (evolve_keeps_period ((hi128_eq_lo128_iff x).mp h) t g)
  case zero =>
    have fixed : generation 0x1E#8 0#256 = 0#256 := by rw [generation_rule30]; decide
    exact evolve_of_fixed fixed
  case ones =>
    rw [evolve_succ, evolve_zero, generation_rule30]
    decide

/-- Settles O18: the operand is complete, so acceptance is all that happens. -/
theorem evolveIsAccepted : Obligations.EvolveIsAccepted :=
  fun _ rule gen hb hv => exec_evolve_accepted rule gen hb hv

/-- Settles O40: the accepted record holds DIN, and no generations leave it as it is. -/
theorem zeroGenerationsCompleteWithTheInput : Obligations.ZeroGenerationsCompleteWithTheInput := by
  intro s rule hb hv
  have completes := completionStep_of_evolve (accept_inflight (.evolve s.din rule 0#32) s)
  refine ⟨_, exec_evolve_accepted rule 0#32 hb hv, accept_busy _ s, accept_dout _ s, ?_, completionStep_busy _⟩
  rw [completes, finishBlock_dout, evolveResult_zero]

/-- Settles O29: rule 30's table is `left XOR (center OR right)`, at every bit. -/
theorem ruleThirtyHasItsClosedForm : Obligations.RuleThirtyHasItsClosedForm := generation_rule30

end Sys2Proof.Proofs
end

section
/-! SUPPORT. A register's limbs moved one place on: a rotation of the value view by 64 positions, and with it the
rotations and the period of a CA256 pass (R10, R106, R107). -/

namespace Sys2Proof.Machine

theorem Reg.ext_limb {x y : Reg} (h : ∀ m, x.limb m = y.limb m) : x = y := by
  obtain ⟨a, b, c, d⟩ := x
  obtain ⟨a', b', c', d'⟩ := y
  rw [Reg.mk.injEq]
  exact ⟨h 0#2, h 1#2, h 2#2, h 3#2⟩

/-- Each limb in the place of the next, the last in the place of the first. -/
def Reg.rotateLimbs (x : Reg) : Reg := ⟨x.l3, x.l0, x.l1, x.l2⟩

theorem Reg.limb_rotateLimbs (x : Reg) (m : BitVec 2) : x.rotateLimbs.limb m = x.limb (m - 1#2) := by
  rcases bv2_cases m with rfl | rfl | rfl | rfl <;> rfl

theorem Reg.ofVal_rotateRight_64 (v : Wide) : Reg.ofVal (v.rotateRight 64) = (Reg.ofVal v).rotateLimbs := by
  refine Reg.ext_limb fun m => BitVec.eq_of_getLsbD_eq fun b hb => ?_
  have hm : m.toNat < 4 := m.isLt
  have place : (64 * (3 - m.toNat) + b + 64) % 256 = 64 * (3 - (m - 1#2).toNat) + b := by bv_omega
  rw [limb_ofVal_bit _ m hb, rotateRight_bit v 64 (by omega), place, Reg.limb_rotateLimbs, limb_ofVal_bit _ _ hb]

/-- Rotating the ring by 64 positions moves every limb one place on (R10). -/
theorem Reg.val_rotateLimbs (x : Reg) : x.rotateLimbs.val = x.val.rotateRight 64 := by
  rw [← Reg.val_ofVal (x.val.rotateRight 64), Reg.ofVal_rotateRight_64, Reg.ofVal_val]

theorem Reg.limb_of_equal_limbs (c : Word64) (m : BitVec 2) : (⟨c, c, c, c⟩ : Reg).limb m = c := by
  rcases bv2_cases m with rfl | rfl | rfl | rfl <;> rfl

/-- A register that the move leaves in place has four equal limbs. -/
theorem Reg.limb_eq_of_rotateLimbs_eq {x : Reg} (h : x.rotateLimbs = x) (m n : BitVec 2) : x.limb m = x.limb n := by
  obtain ⟨a, b, c, d⟩ := x
  obtain ⟨rfl, rfl, rfl, -⟩ : d = a ∧ a = b ∧ b = c ∧ c = d := by rwa [Reg.rotateLimbs, Reg.mk.injEq] at h
  rw [Reg.limb_of_equal_limbs, Reg.limb_of_equal_limbs]

theorem Reg.rotateLimbs_eq_of_limb {x : Reg} {c : Word64} (h : ∀ m, x.limb m = c) : x.rotateLimbs = x :=
  Reg.ext_limb fun m => by rw [Reg.limb_rotateLimbs, h, h]

/-- A CA256 pass treats every position alike (R106, R107). -/
theorem ofVal_ca256_rotateLimbs (x : Reg) :
    Reg.ofVal (ca256 x.rotateLimbs.val) = (Reg.ofVal (ca256 x.val)).rotateLimbs := by
  rw [Reg.val_rotateLimbs, ca256, ca256, evolve_rotateRight, Reg.ofVal_rotateRight_64]

/-- Rule 30 keeps the zero register (R107, law 4). -/
theorem ca256_zero : ca256 0#256 = 0#256 :=
  have fixed : generation Config.rule30 0#256 = 0#256 := by decide
  evolve_of_fixed fixed Config.caPassGens

end Sys2Proof.Machine
end

section
/-! SUPPORT. The mixing vector and the subkeys of a key, and KEYSCHED's acceptance (R121, R122, R125). -/

namespace Sys2Proof.Machine

theorem mixingVector_limb_same (k : Reg) (j : BitVec 2) : (mixingVector k j).limb j = k.limb j := by
  rw [mixingVector_limb, mixingLimb, if_pos rfl]

theorem mixingVector_limb_other (k : Reg) {j m : BitVec 2} (h : m ≠ j) :
    (mixingVector k j).limb m = k.limb m + k.limb m * k.limb j := by
  rw [mixingVector_limb, mixingLimb, if_neg h]

theorem mixingVector_limb_other_factored (k : Reg) {j m : BitVec 2} (h : m ≠ j) :
    (mixingVector k j).limb m = k.limb m * (1#64 + k.limb j) := by
  rw [mixingVector_limb_other k h, BitVec.mul_add, BitVec.mul_one]

/-- Key words whose products all vanish are left as they are. -/
theorem mixingVector_eq_self {k : Reg} {j : BitVec 2} (h : ∀ m, k.limb m * k.limb j = 0#64) :
    mixingVector k j = k := by
  refine Reg.ext_limb fun m => ?_
  by_cases hm : m = j
  · rw [hm, mixingVector_limb_same]
  · rw [mixingVector_limb_other k hm, h, BitVec.add_zero]

/-- The rule of R121 treats every key word alike: with the words moved one place on, the next mixing vector is this one
moved one place on. -/
theorem mixingVector_rotateLimbs (k : Reg) (j : BitVec 2) :
    mixingVector k.rotateLimbs (j + 1#2) = (mixingVector k j).rotateLimbs := by
  refine Reg.ext_limb fun m => ?_
  have meets : m - 1#2 = j ↔ m = j + 1#2 := by bv_omega
  simp only [Reg.limb_rotateLimbs, mixingVector_limb, mixingLimb, BitVec.add_sub_cancel, meets]

theorem derive_subkey (k : Reg) (j : BitVec 2) : (derive k).subkey j = deriveSubkey k j := by
  rcases bv2_cases j with rfl | rfl | rfl | rfl <;> rfl

theorem deriveSubkey_rotateLimbs (k : Reg) (j : BitVec 2) :
    deriveSubkey k.rotateLimbs (j + 1#2) = (deriveSubkey k j).rotateLimbs := by
  rw [deriveSubkey, deriveSubkey, mixingVector_rotateLimbs, ofVal_ca256_rotateLimbs]

/-- A subkey keeps the period of its mixing vector (R107, law 3). -/
theorem deriveSubkey_rotateLimbs_eq {k : Reg} {j : BitVec 2} (h : (mixingVector k j).rotateLimbs = mixingVector k j) :
    (deriveSubkey k j).rotateLimbs = deriveSubkey k j := by
  rw [deriveSubkey, ← ofVal_ca256_rotateLimbs, h]

theorem deriveSubkey_zero (j : BitVec 2) : deriveSubkey Reg.zero j = Reg.zero := by
  have unmixed : mixingVector Reg.zero j = Reg.zero := by
    rcases bv2_cases j with rfl | rfl | rfl | rfl <;> rfl
  have value : Reg.zero.val = 0#256 := rfl
  rw [deriveSubkey, unmixed, value, ca256_zero, ← value, Reg.ofVal_val]

theorem exec_keysched_accepted {s : State} (hb : s.busy = false) (hv : s.keyValid = allValid) :
    exec .keysched s = .next (accept (.keysched s.key) s) := by
  rw [exec_eq_effect, effect, unlessBusy_of_idle _ hb, commandKeysched, if_pos hv]

end Sys2Proof.Machine
end

section
/-! PROOF. The Key Scheduler and the KEYSCHED command. -/

namespace Sys2Proof.Proofs

open Sys2Proof.Machine

/-- Settles O33: the sum and the product of words are those of the numbers modulo 2^64. -/
theorem mixingVectorFollowsItsFormula : Obligations.MixingVectorFollowsItsFormula := by
  intro k j m
  refine ⟨fun h => ?same, fun h => ⟨?exact, mixingVector_limb_other_factored k h⟩⟩
  case same => rw [h, mixingVector_limb_same]
  case exact => rw [mixingVector_limb_other k h, BitVec.toNat_add, BitVec.toNat_mul, Nat.add_mod_mod]

/-- Settles O34: the SK file holds the subkeys by their index, and a CA256 pass is 255 generations of rule 30. -/
theorem subkeysAreOnePassOfTheirMixingVectors : Obligations.SubkeysAreOnePassOfTheirMixingVectors :=
  derive_subkey

/-- Settles O35: the zero register is a fixed point; `1 + k[j]` wraps to 0; a mixing vector of four equal limbs has the
period 64, which a pass keeps; and four equal words stay in place when moved on, so each subkey is the one before
moved on. -/
theorem weakKeysExpandByTheRules : Obligations.WeakKeysExpandByTheRules := by
  refine ⟨?zeroKey, ?onesWord, ?squareZero, ?onesKey⟩
  case zeroKey =>
    rw [derive, deriveSubkey_zero, deriveSubkey_zero, deriveSubkey_zero, deriveSubkey_zero, ScheduledKey.zero]
  case onesWord =>
    intro k j m hj hm
    have wraps : 1#64 + BitVec.allOnes 64 = 0#64 := by decide
    rw [mixingVector_limb_other_factored k hm, hj, wraps, BitVec.mul_zero]
  case squareZero =>
    intro c j m n hc
    have unmixed : mixingVector ⟨c, c, c, c⟩ j = ⟨c, c, c, c⟩ :=
      mixingVector_eq_self fun i => by rw [Reg.limb_of_equal_limbs, Reg.limb_of_equal_limbs, hc]
    have period : (mixingVector ⟨c, c, c, c⟩ j).rotateLimbs = mixingVector ⟨c, c, c, c⟩ j := by
      rw [unmixed, Reg.rotateLimbs]
    rw [derive_subkey]
    exact Reg.limb_eq_of_rotateLimbs_eq (deriveSubkey_rotateLimbs_eq period) m n
  case onesKey =>
    intro k j hk _
    have inPlace : k.rotateLimbs = k := Reg.rotateLimbs_eq_of_limb hk
    have next : deriveSubkey k (j + 1#2) = (deriveSubkey k j).rotateLimbs := by
      rw [← deriveSubkey_rotateLimbs, inPlace]
    rw [derive_subkey, derive_subkey, next, Reg.val_rotateLimbs]

/-- Settles O19: the operand is complete, so acceptance is all that happens. -/
theorem keyschedIsAccepted : Obligations.KeyschedIsAccepted :=
  fun _ hb hv => exec_keysched_accepted hb hv

end Sys2Proof.Proofs
end

section
/-! SUPPORT. The Feistel network run backwards: each half-update undoes itself, and with the halves exchanged the rounds
of the reversed subkeys undo the rounds (R142 to R149). -/

namespace Sys2Proof.Machine

/-- The halves exchanged, as the output block carries them (R145). -/
def Halves.swap (h : Halves) : Halves := ⟨h.right, h.left⟩

@[simp] theorem Halves.swap_swap (h : Halves) : h.swap.swap = h := rfl

theorem outputBlock_eq (h : Halves) : outputBlock h = Reg.ofVal (joinHalves h.swap.left h.swap.right) := rfl

theorem splitBlock_outputBlock (h : Halves) : splitBlock (outputBlock h) = h.swap := by
  rw [splitBlock, outputBlock_eq, Reg.val_ofVal, hi128_joinHalves, lo128_joinHalves]

theorem outputBlock_swap_splitBlock (b : Reg) : outputBlock (splitBlock b).swap = b := by
  rw [outputBlock_eq, Halves.swap_swap, splitBlock, joinHalves_hi_lo, Reg.ofVal_val]

theorem stepLeft_stepLeft (k : Wide) (h : Halves) : stepLeft k (stepLeft k h) = h := by
  rw [stepLeft, stepLeft, BitVec.xor_assoc, BitVec.xor_self, BitVec.xor_zero]

/-- The two half-updates are one, on exchanged halves. -/
theorem stepLeft_swap (k : Wide) (h : Halves) : stepLeft k h.swap = (stepRight k h).swap := rfl

theorem stepRight_swap (k : Wide) (h : Halves) : stepRight k h.swap = (stepLeft k h).swap := rfl

theorem stepRight_stepRight (k : Wide) (h : Halves) : stepRight k (stepRight k h) = h := by
  rw [← h.swap_swap, stepRight_swap, stepRight_swap, stepLeft_stepLeft]

/-- A round of the reversed subkeys meets the half-updates last first, and each cancels. -/
theorem outerRound_reversed_undoes (a b c d : Wide) (h : Halves) :
    outerRound d c b a (outerRound a b c d h).swap = h.swap := by
  simp only [outerRound, stepLeft_swap, stepRight_swap, stepLeft_stepLeft, stepRight_stepRight]

/-- The last round is undone first. -/
theorem outerRounds_reversed_undoes (a b c d : Wide) (n : Nat) (h : Halves) :
    outerRounds d c b a n (outerRounds a b c d n h).swap = h.swap := by
  induction n with
  | zero => rfl
  | succ n ih => rw [outerRounds_succ a b c d, outerRounds, outerRound_reversed_undoes, ih]

/-- The cipher of any four subkeys is undone by the cipher of the same subkeys reversed: the output block exchanges the
halves, which is what the reversed rounds want (R145, R149). -/
theorem cipher_reversed_undoes (a b c d : Wide) (n : Nat) (p : Reg) :
    outputBlock (outerRounds d c b a n (splitBlock (outputBlock (outerRounds a b c d n (splitBlock p))))) = p := by
  rw [splitBlock_outputBlock, outerRounds_reversed_undoes, outputBlock_swap_splitBlock]

theorem decryptBlock_encryptBlock (sk : ScheduledKey) (p : Reg) : decryptBlock sk (encryptBlock sk p) = p :=
  cipher_reversed_undoes sk.k1.val sk.k2.val sk.k3.val sk.k4.val Config.rounds p

theorem encryptBlock_decryptBlock (sk : ScheduledKey) (c : Reg) : encryptBlock sk (decryptBlock sk c) = c :=
  cipher_reversed_undoes sk.k4.val sk.k3.val sk.k2.val sk.k1.val Config.rounds c

end Sys2Proof.Machine
end

section
/-! SUPPORT. Subkeys of equal halves: a pass keeps the equal halves and the fold cancels them, so no step does anything
(R107, R141, R150). -/

namespace Sys2Proof.Machine

theorem hi128_xor (x y : Wide) : hi128 (x ^^^ y) = hi128 x ^^^ hi128 y := BitVec.extractLsb'_xor

theorem lo128_xor (x y : Wide) : lo128 (x ^^^ y) = lo128 x ^^^ lo128 y := BitVec.extractLsb'_xor

theorem fold_of_equal_halves {w : Wide} (h : hi128 w = lo128 w) : fold w = 0#128 := by
  rw [fold, h, BitVec.xor_self]

/-- Equal halves are a period of 128, which a pass keeps (R107, law 3). -/
theorem ca256_keeps_equal_halves {x : Wide} (h : hi128 x = lo128 x) : hi128 (ca256 x) = lo128 (ca256 x) :=
  (hi128_eq_lo128_iff _).mpr (evolve_keeps_period ((hi128_eq_lo128_iff x).mp h) Config.rule30 Config.caPassGens)

/-- The half written twice has equal halves, and so has its XOR with such a subkey. -/
theorem roundFunction_of_equal_halves (v : Half) {k : Wide} (h : hi128 k = lo128 k) : roundFunction v k = 0#128 := by
  have input : hi128 (joinHalves v v ^^^ k) = lo128 (joinHalves v v ^^^ k) := by
    rw [hi128_xor, lo128_xor, hi128_joinHalves, lo128_joinHalves, h]
  exact fold_of_equal_halves (ca256_keeps_equal_halves input)

theorem stepLeft_of_equal_halves {k : Wide} (hk : hi128 k = lo128 k) (h : Halves) : stepLeft k h = h := by
  rw [stepLeft, roundFunction_of_equal_halves _ hk, BitVec.xor_zero]

theorem stepRight_of_equal_halves {k : Wide} (hk : hi128 k = lo128 k) (h : Halves) : stepRight k h = h := by
  rw [stepRight, roundFunction_of_equal_halves _ hk, BitVec.xor_zero]

theorem outerRounds_of_equal_halves {a b c d : Wide} (ha : hi128 a = lo128 a) (hb : hi128 b = lo128 b)
    (hc : hi128 c = lo128 c) (hd : hi128 d = lo128 d) (n : Nat) (h : Halves) : outerRounds a b c d n h = h := by
  induction n with
  | zero => rfl
  | succ n ih =>
    rw [outerRounds, outerRound, stepLeft_of_equal_halves ha, stepRight_of_equal_halves hb,
      stepLeft_of_equal_halves hc, stepRight_of_equal_halves hd, ih]

/-- The output of a block's own halves is the block with its halves exchanged (R145). -/
theorem outputBlock_splitBlock (p : Reg) : outputBlock (splitBlock p) = ⟨p.l2, p.l3, p.l0, p.l1⟩ := by
  rw [splitBlock_eq, outputBlock, ← Reg.val_eq_joinHalves ⟨p.l2, p.l3, p.l0, p.l1⟩, Reg.ofVal_val]

theorem Reg.equal_halves_of_equal_limbs {x : Reg} (h : ∀ m n, x.limb m = x.limb n) : hi128 x.val = lo128 x.val := by
  have first : x.l0 = x.l2 := h 0#2 2#2
  have second : x.l1 = x.l3 := h 1#2 3#2
  rw [x.hi128_val, x.lo128_val, first, second]

end Sys2Proof.Machine
end

section
/-! SUPPORT. The acceptance of ENCRYPT and DECRYPT, and what their completion steps put into DOUT (R151, R152, R172,
R175). -/

namespace Sys2Proof.Machine

theorem commandCipher_accepted (record : Reg → InFlight) {s : State} (hv : s.dinValid = allValid)
    (hk : s.skValid = true) : commandCipher record s = accept (record s.din) s := by
  rw [commandCipher, if_pos hv, if_pos hk]

theorem exec_encrypt_accepted {s : State} (hb : s.busy = false) (hv : s.dinValid = allValid)
    (hk : s.skValid = true) : exec .encrypt s = .next (accept (.encrypt s.din) s) := by
  rw [exec_eq_effect, effect, unlessBusy_of_idle _ hb, commandEncrypt, commandCipher_accepted _ hv hk]

theorem exec_decrypt_accepted {s : State} (hb : s.busy = false) (hv : s.dinValid = allValid)
    (hk : s.skValid = true) : exec .decrypt s = .next (accept (.decrypt s.din) s) := by
  rw [exec_eq_effect, effect, unlessBusy_of_idle _ hb, commandDecrypt, commandCipher_accepted _ hv hk]

theorem completionStep_of_encrypt {s : State} {p : Reg} (h : s.inflight = some (.encrypt p)) :
    completionStep s = finishBlock (encryptBlock s.sk p) s := by
  rw [completionStep, h]

theorem completionStep_of_decrypt {s : State} {c : Reg} (h : s.inflight = some (.decrypt c)) :
    completionStep s = finishBlock (decryptBlock s.sk c) s := by
  rw [completionStep, h]

/-- ENCRYPT to its end: acceptance leaves the SK file, so the completion step uses the one ENCRYPT was written with. -/
theorem exec_encrypt_completes {s : State} (hb : s.busy = false) (hv : s.dinValid = allValid)
    (hk : s.skValid = true) : ∃ t, exec .encrypt s = .next t ∧ t.busy = true ∧
      (completionStep t).dout = encryptBlock s.sk s.din := by
  refine ⟨_, exec_encrypt_accepted hb hv hk, accept_busy _ s, ?_⟩
  rw [completionStep_of_encrypt (accept_inflight _ s), finishBlock_dout, accept_sk]

/-- DECRYPT to its end, likewise. -/
theorem exec_decrypt_completes {s : State} (hb : s.busy = false) (hv : s.dinValid = allValid)
    (hk : s.skValid = true) : ∃ t, exec .decrypt s = .next t ∧ t.busy = true ∧
      (completionStep t).dout = decryptBlock s.sk s.din := by
  refine ⟨_, exec_decrypt_accepted hb hv hk, accept_busy _ s, ?_⟩
  rw [completionStep_of_decrypt (accept_inflight _ s), finishBlock_dout, accept_sk]

end Sys2Proof.Machine
end

section
/-! PROOF. The Feistel Core and the ENCRYPT and DECRYPT commands. -/

namespace Sys2Proof.Proofs

open Sys2Proof.Machine

/-- Settles O37: each half-update undoes itself, and decryption makes them in reverse on exchanged halves. -/
theorem decryptionAndEncryptionAreInverse : Obligations.DecryptionAndEncryptionAreInverse :=
  fun sk b => ⟨decryptBlock_encryptBlock sk b, encryptBlock_decryptBlock sk b⟩

/-- Settles O38: equal halves survive the XOR and the pass, and the fold cancels them; without a round function the 64
steps leave the halves, which the output exchanges; and the squares of 0 and 2^32 are 0, so that the subkeys of four
such words have four equal limbs (R124). -/
theorem equalHalvesSubkeysOnlyExchangeHalves : Obligations.EqualHalvesSubkeysOnlyExchangeHalves := by
  refine ⟨fun v k h => roundFunction_of_equal_halves v h, ?exchange, ?examples⟩
  case exchange =>
    intro sk p hsk
    have unchanged : outerRounds sk.k1.val sk.k2.val sk.k3.val sk.k4.val Config.rounds (splitBlock p) = splitBlock p :=
      outerRounds_of_equal_halves (hsk 0#2) (hsk 1#2) (hsk 2#2) (hsk 3#2) _ _
    rw [encryptBlock, unchanged, outputBlock_splitBlock]
  case examples =>
    intro c j hc
    obtain ⟨-, -, equalLimbs, -⟩ := weakKeysExpandByTheRules
    have square : c * c = 0#64 := by rcases hc with rfl | rfl <;> decide
    exact Reg.equal_halves_of_equal_limbs fun m n => equalLimbs c j m n square

/-- Settles O41: each command completes with the cipher of its DIN under the SK file the two states share, and the two
ciphers undo each other. -/
theorem blockDecryptsWhatItEncrypted : Obligations.BlockDecryptsWhatItEncrypted := by
  intro s s' hb hb' hk hk' hv hv' hsk i j hij
  rcases hij with ⟨rfl, rfl⟩ | ⟨rfl, rfl⟩
  · obtain ⟨t, run, busy, result⟩ := exec_encrypt_completes hb hv hk
    obtain ⟨t', run', busy', result'⟩ := exec_decrypt_completes hb' hv' hk'
    refine ⟨t, t', run, run', busy, busy', fun hdin => ?_⟩
    rw [result', hdin, result, hsk, decryptBlock_encryptBlock]
  · obtain ⟨t, run, busy, result⟩ := exec_decrypt_completes hb hv hk
    obtain ⟨t', run', busy', result'⟩ := exec_encrypt_completes hb' hv' hk'
    refine ⟨t, t', run, run', busy, busy', fun hdin => ?_⟩
    rw [result', hdin, result, hsk, encryptBlock_decryptBlock]

/-- Settles O20: the block and the ScheduledKey are there, so acceptance is all that happens. -/
theorem cipherCommandsAreAccepted : Obligations.CipherCommandsAreAccepted :=
  fun _ hb hv hk => ⟨exec_encrypt_accepted hb hv hk, exec_decrypt_accepted hb hv hk⟩

end Sys2Proof.Proofs
end

section
/-! SUPPORT. What a command does at the write of its word: lost while BUSY = 1; else its effect or the one error
R207 gives it; and what an illegal word does (R170, R172, R205 to R207). -/

namespace Sys2Proof

theorem opField_encodeCommand (c : Command) : opField (encodeCommand c) = c.op := by
  rw [encodeCommand_eq_joinFields, opField_joinFields]

theorem Command.eq_nop_of_op {c : Command} (h : c.op = 0x0#4) : c = .nop := by
  cases c with
  | nop => rfl
  | evolve => exact absurd (show 0x1#4 = 0x0#4 from h) (by decide)
  | keysched | encrypt | decrypt | clear => exact absurd h (by decide)

/-- NOP is the only legal word with `OP` = 0 (R173). -/
theorem legalWord_of_op_zero {w : Word64} (hop : opField w = 0x0#4) (hw : w ≠ 0#64) : legalWord w = false := by
  rw [Bool.eq_false_iff, Ne, legalWord_iff_encodeCommand]
  rintro ⟨c, rfl⟩
  obtain rfl := Command.eq_nop_of_op ((opField_encodeCommand c).symm.trans hop)
  exact hw rfl

end Sys2Proof

namespace Sys2Proof.Machine

theorem exec_command_of_idle (c : Command) {s : State} (hb : s.busy = false) :
    exec c.toInstr s = .next (runCommand c s) := by
  rw [exec_eq_effect, effect_toInstr, unlessBusy_of_idle _ hb]

theorem exec_command_of_busy (c : Command) {s : State} (hb : s.busy = true) :
    exec c.toInstr s = .next (loseWrite s) := by
  rw [exec_eq_effect, effect_toInstr, unlessBusy_of_busy _ hb]

theorem commandWord_of_illegal {w : Word64} (s : State) (hw : legalWord w = false) :
    commandWord w s = raiseError .illegalCmd s := by
  cases hd : decodeCommand w with
  | ok c =>
    rw [← decodeCommand_eq_ok_iff.mp hd, legalWord_encodeCommand] at hw
    exact absurd hw.symm Bool.false_ne_true
  | error e => rw [commandWord, hd]

theorem exec_hwrite_cmd_of_illegal {w : Word64} {s : State} (hb : s.busy = false) (hw : legalWord w = false) :
    exec (.hwrite 0x00#5 w) s = .next (raiseError .illegalCmd s) := by
  have cmd : exec (.hwrite 0x00#5 w) s = .next (writeReg .cmd w s) := exec_hwrite_index .cmd w s
  rw [cmd, writeReg, unlessBusy_of_idle _ hb, commandWord_of_illegal s hw]

/-- A legal command with BUSY = 0 raises its error of R207, or takes its effect if there is none (R172). -/
theorem runCommand_eq (c : Command) (s : State) :
    runCommand c s = (commandError c s).elim (commandEffect c s) (raiseError · s) := by
  cases c with
  | nop | clear => rfl
  | evolve rule gen =>
    rw [runCommand, commandEvolve, commandError, allValid]
    split_ifs <;> rfl
  | keysched =>
    rw [runCommand, commandKeysched, commandError, allValid]
    split_ifs <;> rfl
  | encrypt =>
    rw [runCommand, commandEncrypt, commandCipher, commandError, allValid]
    split_ifs <;> rfl
  | decrypt =>
    rw [runCommand, commandDecrypt, commandCipher, commandError, allValid]
    split_ifs <;> rfl

theorem exec_command_without_error {c : Command} {s : State} (hb : s.busy = false) (he : commandError c s = none) :
    exec c.toInstr s = .next (commandEffect c s) := by
  rw [exec_command_of_idle c hb, runCommand_eq, he, Option.elim_none]

theorem exec_command_with_error {c : Command} {s : State} {e : ErrCode} (hb : s.busy = false)
    (he : commandError c s = some e) : exec c.toInstr s = .next (raiseError e s) := by
  rw [exec_command_of_idle c hb, runCommand_eq, he, Option.elim_some]

theorem commandClear_statusWord (s : State) : (commandClear s).statusWord = 0x0000000000000002#64 := by
  simp only [State.statusWord, commandClear_err, commandClear_dinValid, commandClear_keyValid, commandClear_busyErr,
    commandClear_skValid, commandClear_done, commandClear_busy]
  decide

end Sys2Proof.Machine
end

section
/-! SUPPORT. Reads while BUSY = 0, the completion step of KEYSCHED, and the run that brings a busy block to
quiescence (R171, R175, R176). -/

namespace Sys2Proof.Machine

theorem exec_hread_index_of_idle (r : HostReg) {s : State} (hb : s.busy = false) :
    exec (.hread r.index) s = .next { s with rdata := s.readReg r } := by
  rw [exec_eq_effect, effect, hb, Bool.false_and, hostReg_index]
  rfl

theorem completionStep_of_keysched {s : State} {k : Reg} (h : s.inflight = some (.keysched k)) :
    completionStep s = finishKey (derive k) s := by
  rw [completionStep, h]

/-- The edge at which a command in flight completes leaves the block quiescent, by reset if not by completion. -/
theorem nextState_busy_of_completes {s : State} (hb : s.busy = true) (hc : s.edge.completes = true) :
    (nextState s).busy = false := by
  cases hr : s.edge.rst with
  | true => rw [nextState_of_rst hr, resetBlock_busy]
  | false => rw [nextState_of_no_rst hr, engineTurn, hc, hb, Bool.and_true, if_pos rfl, completionStep_busy]

theorem edge_of_exhausted {s : State} (h : s.port = []) : s.edge = restEdge := by
  rw [State.edge, h, List.headD_nil]

theorem core_run_one (s : State) : Sys2Proof.core.run 1 s = .next (nextState s) := core_run_succ 0 s

end Sys2Proof.Machine

namespace Sys2Proof.Safety

open Sys2Proof.Machine

/-- A busy block is quiescent at the latest when its schedule is exhausted and one more edge has come: every edge
takes one entry, and the edge after the last completes (R175). -/
theorem run_reaches_quiescence (p : List ClockEdge) {s : State} (hp : s.port = p) (hb : s.busy = true) :
    ∃ k t, k ≤ p.length + 1 ∧ Sys2Proof.core.run k s = .next t ∧ quiescent t = true := by
  induction p generalizing s with
  | nil =>
    have idle := nextState_busy_of_completes hb (by rw [edge_of_exhausted hp]; rfl)
    exact ⟨1, _, le_rfl, core_run_one s, by rw [quiescent, idle]; rfl⟩
  | cons e p ih =>
    cases hn : (nextState s).busy with
    | false => exact ⟨1, _, by simp, core_run_one s, by rw [quiescent, hn]; rfl⟩
    | true =>
      obtain ⟨k, t, hk, run, hq⟩ := ih (by rw [nextState_port, hp, List.tail_cons]) hn
      exact ⟨k + 1, t, Nat.succ_le_succ hk, (core_run_succ k s).trans run, hq⟩

end Sys2Proof.Safety
end

section
/-! SUPPORT. A host that keeps to its obligations: no write of it is lost and no word it reads is unspecified (R177). -/

namespace Sys2Proof.Safety

open Sys2Proof.Machine

/-- The host may write CMD, KEY and DIN, and so any command, while BUSY = 0 alone. -/
theorem idle_of_hostMay_guarded {s : State} {i : Instr} (h : hostMay s i = true) (hg : i.writesGuarded = true) :
    s.busy = false := by
  cases i with
  | hread r => exact absurd hg Bool.false_ne_true
  | hwrite r d => rw [Instr.writesGuarded] at hg; simpa [hostMay, hg] using h
  | nop | evolve | keysched | encrypt | decrypt | clear => simpa [hostMay] using h

theorem effect_hread_of_hostMay {s : State} {r : WordIndex} (h : hostMay s (.hread r) = true) :
    effect (.hread r) s = driveRead (s.readReg (hostReg r)) s := by
  have specified : (s.busy && (hostReg r).isResult) = false := by simpa only [hostMay, Bool.not_eq_true'] using h
  rw [effect, specified, if_neg Bool.false_ne_true]

/-- What the host may do while BUSY = 1 drives `rdata` with a specified value or nothing. -/
theorem effect_of_hostMay_busy {s : State} {i : Instr} (h : hostMay s i = true) (hb : s.busy = true) :
    (∃ v, effect i s = driveRead v s) ∨ effect i s = s := by
  have unguarded : i.writesGuarded = false := Bool.eq_false_iff.mpr fun hg =>
    absurd (hb.symm.trans (idle_of_hostMay_guarded h hg)).symm Bool.false_ne_true
  cases i with
  | hread r => exact .inl ⟨_, effect_hread_of_hostMay h⟩
  | hwrite r d => exact .inr (writeReg_of_not_guarded d s unguarded)
  | nop | evolve | keysched | encrypt | decrypt | clear => exact absurd unguarded.symm Bool.false_ne_true

/-- While BUSY = 0 no transaction loses a write or draws an unspecified value. -/
theorem transaction_of_idle {s t : State} (h : TransactionEffect s t) (hb : s.busy = false) :
    (t.busyErr = true → s.busyErr = true) ∧ t.draws = s.draws := by
  cases h with
  | readValue | dropped | key | din | rejected | evolve | keysched | encrypt | decrypt => exact ⟨id, rfl⟩
  | nop | clear => exact ⟨nofun, rfl⟩
  | readFree hb' | lost hb' => exact absurd (hb.symm.trans hb') Bool.false_ne_true

theorem effect_of_hostMay {s : State} {i : Instr} (h : hostMay s i = true) :
    ((effect i s).busyErr = true → s.busyErr = true) ∧ (effect i s).draws = s.draws := by
  cases hb : s.busy with
  | false => exact transaction_of_idle (effect_cases i s) hb
  | true => obtain ⟨v, he⟩ | he := effect_of_hostMay_busy h hb <;> rw [he] <;> exact ⟨id, rfl⟩

end Sys2Proof.Safety
end

section
/-! PROOF. The host's side: reads, NOP and CLEAR, the completion step, and an obedient host. -/

namespace Sys2Proof.Proofs

open Sys2Proof.Machine Sys2Proof.Safety

/-- Settles O16: a word with `OP` = 0 is NOP's word or illegal. -/
theorem nopAcknowledgesErrors : Obligations.NopAcknowledgesErrors :=
  ⟨fun _ => exec_command_of_idle .nop, fun _ => exec_command_of_busy .nop, rfl,
    fun _ _ hop hw hb => exec_hwrite_cmd_of_illegal hb (legalWord_of_op_zero hop hw)⟩

/-- Settles O52: what the host may write reaches its register or the decoder, and what it may read is specified. -/
theorem obedientHostLosesNothing : Obligations.ObedientHostLosesNothing := by
  intro s t i may run
  obtain ⟨noneLost, noneDrawn⟩ := effect_of_hostMay may
  rw [← exec_next run] at noneLost noneDrawn
  have answer : ∀ {u}, exec i s = .next u → t = u := fun h => Host.Outcome.next.inj (run.symm.trans h)
  have idle := idle_of_hostMay_guarded may
  refine ⟨?key, ?din, ?command, ?illegal, noneLost, ?read, noneDrawn⟩
  case key =>
    rintro m d rfl
    exact answer (exec_hwrite_key m d (idle (by rw [key_wordIndex, Instr.writesGuarded, hostReg_index]; rfl)))
  case din =>
    rintro m d rfl
    exact answer (exec_hwrite_din m d (idle (by rw [din_wordIndex, Instr.writesGuarded, hostReg_index]; rfl)))
  case command =>
    intro c hc
    obtain ⟨hb, same⟩ : s.busy = false ∧ exec i s = exec c.toInstr s := by
      obtain rfl | ⟨d, rfl, hd⟩ := hc
      · exact ⟨idle c.toInstr_writesGuarded, rfl⟩
      · rw [← decodeCommand_eq_ok_iff.mp hd]
        exact ⟨idle rfl, commandIsTheWriteOfItsWord c s⟩
    exact ⟨fun he => answer (same.trans (exec_command_without_error hb he)),
      fun e he => answer (same.trans (exec_command_with_error hb he))⟩
  case illegal =>
    rintro d rfl hd
    exact answer (exec_hwrite_cmd_of_illegal (idle rfl) hd)
  case read =>
    rintro r rfl
    rw [exec_next run, effect_hread_of_hostMay may, driveRead_rdata]

/-- Settles O59: by induction on the schedule. -/
theorem busyBlockBecomesQuiescent : Obligations.BusyBlockBecomesQuiescent :=
  fun s hb => run_reaches_quiescence s.port rfl hb

/-- Settles O7: DOUT and SK are the results, whose reads need BUSY = 0; every other read is specified. -/
theorem hreadReturnsTheRegister : Obligations.HreadReturnsTheRegister := by
  intro s j m
  obtain ⟨reserved2, -⟩ := reservedIndicesReadZeroAndIgnoreWrites s 0x02#5 0#64 (.inl rfl)
  obtain ⟨reserved3, -⟩ := reservedIndicesReadZeroAndIgnoreWrites s 0x03#5 0#64 (.inr rfl)
  rw [key_wordIndex, din_wordIndex, dout_wordIndex, sk_wordIndex]
  exact ⟨exec_hread_index_specified (r := .cmd) s rfl, reserved2, reserved3,
    exec_hread_index_specified (r := .status) s rfl, exec_hread_index_specified s rfl,
    exec_hread_index_specified s rfl,
    fun hb => ⟨exec_hread_index_of_idle (.dout m) hb, exec_hread_index_of_idle (.sk j m) hb⟩⟩

/-- Settles O17: CLEAR leaves SK_VALID = 0, so that a complete block finds no key. -/
theorem clearTakesResetValues : Obligations.ClearTakesResetValues := by
  refine ⟨rfl, fun s hb => ⟨commandClear s, exec_command_of_idle .clear hb, rfl, commandClear_statusWord s,
    fun i hi => ?_⟩, fun _ => exec_command_of_busy .clear⟩
  obtain rfl | rfl := hi
  · exact exec_command_with_error (c := .encrypt) rfl rfl
  · exact exec_command_with_error (c := .decrypt) rfl rfl

/-- Settles O39: the completion step by the record in flight. -/
theorem completionStepWritesTheResult : Obligations.CompletionStepWritesTheResult :=
  fun _ _ _ _ => ⟨completionStep_of_evolve, completionStep_of_keysched, completionStep_of_encrypt,
    completionStep_of_decrypt⟩

end Sys2Proof.Proofs
end

section
/-! SUPPORT. The fields no legal word has, the one error a command raises as a function of its opcode, and which
transactions leave a new error (R200, R202, R204, R205, R207). -/

namespace Sys2Proof

/-- What the word of every command has in its fields (R72 to R74). -/
theorem encodeCommand_fields (c : Command) :
    opField (encodeCommand c) < 0x6#4 ∧ rsv0Field (encodeCommand c) = 0#4 ∧ rsv1Field (encodeCommand c) = 0#16 ∧
      (opField (encodeCommand c) ≠ 0x1#4 → (encodeCommand c).extractLsb' 8 40 = 0#40) := by
  cases c with
  | evolve rule gen => simp [encodeCommand_eq_joinFields, Command.op]
  | nop | keysched | encrypt | decrypt | clear => decide

/-- The illegal words by R205's own list. -/
theorem legalWord_of_illegal_fields {w : Word64}
    (h : 0x6#4 ≤ opField w ∨ rsv0Field w ≠ 0#4 ∨ rsv1Field w ≠ 0#16 ∨
      (opField w ≠ 0x1#4 ∧ w.extractLsb' 8 40 ≠ 0#40)) : legalWord w = false := by
  rw [Bool.eq_false_iff, Ne, legalWord_iff_encodeCommand]
  rintro ⟨c, rfl⟩
  obtain ⟨hop, hrsv0, hrsv1, hfields⟩ := encodeCommand_fields c
  obtain op | rsv0 | rsv1 | ⟨plain, fields⟩ := h
  · exact BitVec.not_lt.mpr op hop
  · exact rsv0 hrsv0
  · exact rsv1 hrsv1
  · exact fields (hfields plain)

/-- The error of a legal command in the order of R207: the operand of its opcode, and then the ScheduledKey. -/
theorem commandError_eq (c : Command) (s : Machine.State) : commandError c s =
    if c.op = 0x2#4 ∧ s.keyValid ≠ 0b1111#4 then some .invalidLength
    else if c.op ∈ [0x1#4, 0x3#4, 0x4#4] ∧ s.dinValid ≠ 0b1111#4 then some .invalidLength
    else if c.op ∈ [0x3#4, 0x4#4] ∧ s.skValid = false then some .noKey
    else none := by
  cases c with
  | nop | evolve | keysched | clear => simp [commandError, Command.op]
  | encrypt | decrypt => cases hk : s.skValid <;> simp [commandError, Command.op, hk]

@[simp] theorem commandEffect_err (c : Command) (s : Machine.State) : (commandEffect c s).err = .ok := by
  cases c <;> rfl

end Sys2Proof

namespace Sys2Proof.Machine

theorem exec_hwrite_cmd_of_idle (w : Word64) {s : State} (hb : s.busy = false) :
    exec (.hwrite 0x00#5 w) s = .next (commandWord w s) := by
  have cmd : exec (.hwrite 0x00#5 w) s = .next (writeReg .cmd w s) := exec_hwrite_index .cmd w s
  rw [cmd, writeReg, unlessBusy_of_idle _ hb]

/-- BUSY = 1 loses a write of any word to CMD, KEY or DIN (R206). -/
theorem exec_hwrite_of_busy {s : State} {i : WordIndex} (d : Word64) (hb : s.busy = true)
    (hi : i = 0x00#5 ∨ (0x04#5 ≤ i ∧ i ≤ 0x0B#5)) : exec (.hwrite i d) s = .next (loseWrite s) := by
  rw [exec_eq_effect, effect_of_busy_guarded (i := .hwrite i d) hb ((isGuarded_iff i).mpr hi)]

/-- A command that leaves an error has raised it: acceptance, NOP and CLEAR leave none (R172 to R174). -/
theorem runCommand_of_error {c : Command} {s : State} (h : (runCommand c s).err ≠ .ok) :
    ∃ e, runCommand c s = raiseError e s := by
  rw [runCommand_eq] at h ⊢
  cases he : commandError c s with
  | some e => exact ⟨e, rfl⟩
  | none => rw [he, Option.elim_none, commandEffect_err] at h; exact absurd rfl h

theorem commandWord_of_error {w : Word64} {s : State} (h : (commandWord w s).err ≠ .ok) :
    ∃ e, commandWord w s = raiseError e s := by
  unfold commandWord at h ⊢
  cases hd : decodeCommand w with
  | ok c => rw [hd] at h; exact runCommand_of_error h
  | error => exact ⟨_, rfl⟩

/-- Of all transactions only a rejected command leaves an error that was not there before (R200). -/
theorem transaction_of_new_error {s t : State} (h : TransactionEffect s t) (hok : t.err ≠ .ok)
    (hnew : t.err ≠ s.err) : s.busy = false ∧ ∃ e, t = raiseError e s := by
  cases h with
  | rejected e hb => exact ⟨hb, e, rfl⟩
  | readValue | readFree | dropped | lost | key | din => exact absurd rfl hnew
  | evolve | keysched | encrypt | decrypt | nop | clear => exact absurd rfl hok

@[simp] theorem effect_hread_err (r : WordIndex) (s : State) : (effect (.hread r) s).err = s.err := by
  rw [effect]
  split_ifs <;> rfl

theorem writeReg_err_of_ne_cmd {r : HostReg} (hr : r ≠ .cmd) (d : Word64) (s : State) :
    (writeReg r d s).err = s.err := by
  cases r with
  | cmd => exact absurd rfl hr
  | key | din =>
    rw [writeReg, unlessBusy]; split_ifs <;> rfl
  | status | reserved | dout | sk => rfl

end Sys2Proof.Machine
end

section
/-! PROOF. Errors: what is lost while BUSY = 1, what each error is raised by and changes, and that no access faults. -/

namespace Sys2Proof.Proofs

open Sys2Proof.Machine

/-- Settles O13: these indices are the ones BUSY guards. -/
theorem busyWriteOnlySetsBusyErr : Obligations.BusyWriteOnlySetsBusyErr :=
  fun _ hb => ⟨fun _ d => exec_hwrite_of_busy d hb, fun c => exec_command_of_busy c hb⟩

/-- Settles O23: no command's word has such fields. -/
theorem illegalWordsRaiseIllegalCmd : Obligations.IllegalWordsRaiseIllegalCmd :=
  ⟨rfl, fun _ _ hb h => exec_hwrite_cmd_of_illegal hb (legalWord_of_illegal_fields h)⟩

/-- Settles O24: the word is lost, is illegal, or is the word of a command, whose error its opcode decides. -/
theorem oneErrorIsReportedInPriorityOrder : Obligations.OneErrorIsReportedInPriorityOrder := by
  intro w s
  cases hb : s.busy with
  | true => exact ⟨_, exec_hwrite_of_busy w hb (.inl rfl), rfl⟩
  | false =>
    cases hw : legalWord w with
    | false => exact ⟨_, exec_hwrite_cmd_of_illegal hb hw, rfl⟩
    | true =>
      obtain ⟨c, rfl⟩ := (legalWord_iff_encodeCommand w).mp hw
      have run := (commandIsTheWriteOfItsWord c s).trans (exec_command_of_idle c hb)
      refine ⟨_, run, ?_⟩
      have hop : (encodeCommand c).extractLsb' 0 4 = c.op := opField_encodeCommand c
      rw [hop, runCommand_eq, commandError_eq, if_neg Bool.false_ne_true, if_neg Bool.false_ne_true.symm]
      split_ifs with key din sk
      · rfl
      · rfl
      · rfl
      · have noError : commandError c s = none := by rw [commandError_eq, if_neg key, if_neg din, if_neg sk]
        exact ⟨c, decodeCommand_eq_ok_iff.mpr rfl, rfl, exec_command_without_error hb noError, rfl⟩

/-- Settles O25: only a rejected command leaves a new error, and reads and writes elsewhere than CMD leave ERR alone. -/
theorem raisingAnErrorChangesOnlyErrAndDone : Obligations.RaisingAnErrorChangesOnlyErrAndDone := by
  refine ⟨fun w s t hb run hok => ?_, fun i s t run hok hnew => ?_⟩
  · obtain rfl := Host.Outcome.next.inj ((exec_hwrite_cmd_of_idle w hb).symm.trans run)
    obtain ⟨e, he⟩ := commandWord_of_error hok
    rw [he]
    rfl
  · obtain rfl := exec_next run
    obtain ⟨hb, e, he⟩ := transaction_of_new_error (effect_cases i s) hok hnew
    refine ⟨hb, ?noRead, ?onCmd, by rw [he]; rfl⟩
    case noRead =>
      rintro r rfl
      exact hnew (effect_hread_err r s)
    case onCmd =>
      rintro r d rfl
      by_contra hr
      exact hnew (writeReg_err_of_ne_cmd (mt (hostReg_eq_cmd_iff r).mp hr) d s)

/-- Settles O21: the operand check comes first for every command that has one. -/
theorem missingOperandWordsRaiseInvalidLength : Obligations.MissingOperandWordsRaiseInvalidLength :=
  ⟨rfl, fun _ hb =>
    ⟨fun hv => exec_command_with_error (c := .keysched) hb (if_neg hv),
      fun hv => ⟨fun rule gen => exec_command_with_error (c := .evolve rule gen) hb (if_neg hv),
        exec_command_with_error (c := .encrypt) hb (if_neg hv),
        exec_command_with_error (c := .decrypt) hb (if_neg hv)⟩⟩⟩

/-- Settles O22: with the operand complete, the ScheduledKey is what is missing. -/
theorem cipherWithoutScheduledKeyRaisesNoKey : Obligations.CipherWithoutScheduledKeyRaisesNoKey :=
  ⟨rfl, fun s hb hv hk =>
    have noKey : ∀ c, c = .encrypt ∨ c = .decrypt → commandError c s = some .noKey := by
      rintro c (rfl | rfl) <;> rw [commandError, if_pos hv, hk, if_neg Bool.false_ne_true]
    ⟨exec_command_with_error hb (noKey .encrypt (.inl rfl)), exec_command_with_error hb (noKey .decrypt (.inr rfl))⟩⟩

/-- Settles O47: every edge and every instruction has its next state. -/
theorem everyStepAnswersANextState : Obligations.EveryStepAnswersANextState :=
  ⟨fun s => ⟨_, step_eq_nextState s⟩, fun i s => ⟨_, exec_eq_effect i s⟩⟩

end Sys2Proof.Proofs
end

section
/-! SUPPORT. A clock edge of a busy block: the command in flight stays or completes, and a schedule that keeps `n`
clock cycles completes it at the `n`-th edge (R64, R175, R227). -/

namespace Sys2Proof.Machine

@[simp] theorem core_run_zero (s : State) : Sys2Proof.core.run 0 s = .next s := rfl

/-- Only the completion step takes a command out of flight (R220, R223). -/
theorem nextState_inflight_of_no_completion {s : State} (hb : s.busy = true) (hr : s.edge.rst = false)
    (hc : s.edge.completes = false) : (nextState s).inflight = s.inflight := by
  rw [nextState_of_no_rst hr, engineTurn, hc, Bool.false_and, if_neg Bool.false_ne_true,
    afterTransaction_inflight_of_busy hb]

theorem nextState_of_completion {s : State} (hb : s.busy = true) (hr : s.edge.rst = false)
    (hc : s.edge.completes = true) : nextState s = completionStep (afterTransaction s) := by
  rw [nextState_of_no_rst hr, engineTurn, hc, hb, Bool.and_true, if_pos rfl]

theorem completionStep_done {s : State} (hb : s.busy = true) : (completionStep s).done = true := by
  have completion := completionStep_cases hb
  generalize completionStep s = t at completion ⊢
  cases completion <;> rfl

end Sys2Proof.Machine

namespace Sys2Proof.Safety

open Sys2Proof.Machine

/-- The schedule of `s` gives a command in flight one more edge, at which it completes. -/
theorem completesAfter_one_iff (s : State) :
    completesAfter 1 s.port = true ↔ s.edge.rst = false ∧ s.edge.completes = true := by
  simp [completesAfter, State.edge]

/-- The schedule of `s` gives a command in flight two edges or more: it does not complete at the first. -/
theorem completesAfter_add_two_iff (n : Nat) (s : State) :
    completesAfter (n + 2) s.port = true ↔
      s.edge.rst = false ∧ s.edge.completes = false ∧ completesAfter (n + 1) (nextState s).port = true := by
  rw [nextState_port]
  simp [completesAfter, State.edge, and_assoc]

/-- A schedule whose first completion is at its `n`-th edge holds the command in flight until then, edge by edge, and
completes it there. -/
theorem inflight_until_completion {n : Nat} {s : State} {c : InFlight} (hi : s.inflight = some c)
    (hn : completesAfter n s.port = true) :
    (∀ k, k < n → ∃ t, Sys2Proof.core.run k s = .next t ∧ t.inflight = some c) ∧
      ∃ t, Sys2Proof.core.run n s = .next t ∧ t.busy = false ∧ t.done = true := by
  have hb : s.busy = true := (busy_iff_inflight s).mpr ⟨c, hi⟩
  match n with
  | 0 => exact absurd hn Bool.false_ne_true
  | 1 =>
    obtain ⟨hr, hc⟩ := (completesAfter_one_iff s).mp hn
    refine ⟨fun k hk => ?_, nextState s, core_run_one s, ?_⟩
    · obtain rfl : k = 0 := by omega
      exact ⟨s, core_run_zero s, hi⟩
    · rw [nextState_of_completion hb hr hc]
      exact ⟨completionStep_busy _, completionStep_done (afterTransaction_busy hb)⟩
  | n + 2 =>
    obtain ⟨hr, hc, hrest⟩ := (completesAfter_add_two_iff n s).mp hn
    have stays : (nextState s).inflight = some c := (nextState_inflight_of_no_completion hb hr hc).trans hi
    obtain ⟨until_completion, at_completion⟩ := inflight_until_completion stays hrest
    refine ⟨fun k hk => ?_, by rw [core_run_succ]; exact at_completion⟩
    cases k with
    | zero => exact ⟨s, core_run_zero s, hi⟩
    | succ k => rw [core_run_succ]; exact until_completion k (by omega)

end Sys2Proof.Safety
end

section
/-! SUPPORT. What acceptance consumes: which instructions put a command in flight, and what the completed command
finds when it is written again (R172, R202, R225). -/

namespace Sys2Proof.Machine

@[simp] theorem completionStep_key (s : State) : (completionStep s).key = s.key := by
  unfold completionStep
  split <;> rfl

@[simp] theorem completionStep_din (s : State) : (completionStep s).din = s.din := by
  unfold completionStep
  split <;> rfl

@[simp] theorem completionStep_keyValid (s : State) : (completionStep s).keyValid = s.keyValid := by
  unfold completionStep
  split <;> rfl

@[simp] theorem completionStep_dinValid (s : State) : (completionStep s).dinValid = s.dinValid := by
  unfold completionStep
  split <;> rfl

/-- Only a write to CMD can put a command in flight. -/
theorem writeReg_busy_of_ne_cmd {r : HostReg} (hr : r ≠ .cmd) (d : Word64) (s : State) :
    (writeReg r d s).busy = s.busy := by
  cases r with
  | cmd => exact absurd rfl hr
  | key | din =>
    rw [writeReg, unlessBusy]; split_ifs <;> rfl
  | status | reserved | dout | sk => rfl

@[simp] theorem effect_hread_busy (r : WordIndex) (s : State) : (effect (.hread r) s).busy = s.busy := by
  rw [effect]
  split_ifs <;> rfl

/-- An instruction that puts a command in flight is a command, in one spelling or the other (R78, R172). -/
theorem exists_command_of_accepted {i : Instr} {s : State} (hb : s.busy = false) (ht : (effect i s).busy = true) :
    ∃ c : Command, ∀ u, exec i u = exec c.toInstr u := by
  have changed : (effect i s).busy ≠ s.busy := by simp [hb, ht]
  cases i with
  | hread r => exact absurd (effect_hread_busy r s) changed
  | hwrite r d =>
    by_cases hr : hostReg r = .cmd
    · obtain rfl := (hostReg_eq_cmd_iff r).mp hr
      cases hd : decodeCommand d with
      | ok c =>
        obtain rfl := decodeCommand_eq_ok_iff.mp hd
        exact ⟨c, Proofs.commandIsTheWriteOfItsWord c⟩
      | error e =>
        rw [effect, hr, writeReg, unlessBusy_of_idle _ hb, commandWord, hd] at changed
        exact absurd (raiseError_busy _ s) changed
    · exact absurd (writeReg_busy_of_ne_cmd hr d s) changed
  | nop => exact ⟨.nop, fun _ => rfl⟩
  | evolve rule gen => exact ⟨.evolve rule gen, fun _ => rfl⟩
  | keysched => exact ⟨.keysched, fun _ => rfl⟩
  | encrypt => exact ⟨.encrypt, fun _ => rfl⟩
  | decrypt => exact ⟨.decrypt, fun _ => rfl⟩
  | clear => exact ⟨.clear, fun _ => rfl⟩

/-- A command that is in flight after its write raised no error (R172). -/
theorem runCommand_of_accepted {c : Command} {s : State} (hb : s.busy = false)
    (ht : (runCommand c s).busy = true) : runCommand c s = commandEffect c s := by
  rw [runCommand_eq] at ht ⊢
  cases he : commandError c s with
  | none => rfl
  | some e =>
    rw [he, Option.elim_some, raiseError_busy, hb] at ht
    exact absurd ht Bool.false_ne_true

/-- NOP and CLEAR are finished at their write; the four others are accepted (R172 to R174). -/
theorem commandEffect_busy_iff {c : Command} {s : State} (hb : s.busy = false) :
    (commandEffect c s).busy = true ↔ c ≠ .nop ∧ c ≠ .clear := by
  cases c with
  | nop => exact iff_of_false (Bool.eq_false_iff.mp hb) fun ⟨hn, _⟩ => hn rfl
  | clear => exact iff_of_false Bool.false_ne_true fun ⟨_, hc⟩ => hc rfl
  | evolve | keysched | encrypt | decrypt => exact iff_of_true rfl ⟨nofun, nofun⟩

/-- An accepted command leaves both operand registers as they were (R225). -/
theorem commandEffect_operands {c : Command} (s : State) (hc : c ≠ .clear) :
    (commandEffect c s).key = s.key ∧ (commandEffect c s).din = s.din := by
  cases c with
  | clear => exact absurd rfl hc
  | nop | evolve | keysched | encrypt | decrypt => exact ⟨rfl, rfl⟩

/-- The valid bits an accepted command leaves: KEYSCHED consumes KEY's and any other command DIN's (R172). -/
theorem commandEffect_consumes {c : Command} (s : State) (hn : c ≠ .nop) (hc : c ≠ .clear) :
    ((∃ k, (commandEffect c s).inflight = some (.keysched k)) →
      (commandEffect c s).keyValid = 0#4 ∧ (commandEffect c s).dinValid = s.dinValid) ∧
    ((¬ ∃ k, (commandEffect c s).inflight = some (.keysched k)) →
      (commandEffect c s).dinValid = 0#4 ∧ (commandEffect c s).keyValid = s.keyValid) := by
  cases c with
  | nop => exact absurd rfl hn
  | clear => exact absurd rfl hc
  | keysched => exact ⟨fun _ => ⟨rfl, rfl⟩, fun h => absurd ⟨s.key, rfl⟩ h⟩
  | evolve | encrypt | decrypt => exact ⟨fun h => (nomatch h), fun _ => ⟨rfl, rfl⟩⟩

/-- With the valid bits an accepted command leaves, the same command lacks its operand (R202, R225). -/
theorem commandError_of_consumed {c : Command} {s u : State} (hn : c ≠ .nop) (hc : c ≠ .clear)
    (hkey : u.keyValid = (commandEffect c s).keyValid) (hdin : u.dinValid = (commandEffect c s).dinValid) :
    commandError c u = some .invalidLength := by
  cases c with
  | nop => exact absurd rfl hn
  | clear => exact absurd rfl hc
  | keysched =>
    have consumed : u.keyValid = 0b0000#4 := hkey
    exact if_neg (by rw [consumed]; decide)
  | evolve | encrypt | decrypt =>
    have consumed : u.dinValid = 0b0000#4 := hdin
    exact if_neg (by rw [consumed]; decide)

end Sys2Proof.Machine
end

section
/-! SUPPORT. The zeros the registers hold after reset (R41). -/

namespace Sys2Proof.Machine

@[simp] theorem Reg.zero_limb (m : BitVec 2) : Reg.zero.limb m = 0#64 := Reg.limb_of_equal_limbs 0#64 m

@[simp] theorem ScheduledKey.zero_subkey (j : BitVec 2) : ScheduledKey.zero.subkey j = Reg.zero := by
  rcases bv2_cases j with rfl | rfl | rfl | rfl <;> rfl

theorem reset_statusWord : State.reset.statusWord = 0#64 := by decide

theorem reset_readReg (r : HostReg) : State.reset.readReg r = 0#64 := by
  cases r with
  | cmd | reserved => rfl
  | status => exact reset_statusWord
  | key m | din m | dout m => exact Reg.zero_limb m
  | sk j m => exact (congrArg (Reg.limb · m) (ScheduledKey.zero_subkey j)).trans (Reg.zero_limb m)

end Sys2Proof.Machine
end

section
/-! PROOF. Reset and hazards: what abandons a command, how long it is in flight, and what it leaves consumed. -/

namespace Sys2Proof.Proofs

open Sys2Proof.Machine Sys2Proof.Safety

/-- Settles O45: every register of the map holds zeros. -/
theorem resetStateIsQuiescentAndZero : Obligations.ResetStateIsQuiescentAndZero :=
  ⟨rfl, rfl, rfl, rfl, rfl, rfl, rfl, reset_statusWord, fun i => reset_readReg (hostReg i)⟩

/-- Settles O44: a reset edge is `resetBlock`; at any other edge the transaction leaves the command in flight, and
after it only the completion step can take it out. -/
theorem resetEdgeGivesResetValues : Obligations.ResetEdgeGivesResetValues := by
  refine ⟨fun s hr => ⟨_, step_eq_nextState s, by rw [nextState_of_rst hr]; rfl⟩, fun s t c hi hr h => ?_⟩
  have hb : s.busy = true := (busy_iff_inflight s).mpr ⟨c, hi⟩
  have still : (afterTransaction s).inflight = some c := (afterTransaction_inflight_of_busy hb).trans hi
  cases step_outcome h with
  | reset hr' => exact absurd (hr.symm.trans hr') Bool.false_ne_true
  | settled => exact .inl still
  | completed => exact .inr ⟨_, still, rfl⟩

/-- Settles O60: by induction on the clock cycles the schedule keeps. -/
theorem commandIsInFlightForItsLatency : Obligations.CommandIsInFlightForItsLatency :=
  fun _ _ hi keeps => inflight_until_completion hi keeps

/-- Settles O26: what was accepted is a command, its completion step leaves operands and valid bits as acceptance
did, and with those valid bits it has no operand. -/
theorem consumedOperandsMustBeWrittenAgain : Obligations.ConsumedOperandsMustBeWrittenAgain := by
  intro s t i hb run busy
  obtain ⟨c, same⟩ := exists_command_of_accepted hb (exec_next run ▸ busy)
  have ran : runCommand c s = t :=
    Host.Outcome.next.inj ((exec_command_of_idle c hb).symm.trans ((same s).symm.trans run))
  obtain rfl : commandEffect c s = t := (runCommand_of_accepted hb (ran ▸ busy)).symm.trans ran
  obtain ⟨hn, hc⟩ := (commandEffect_busy_iff hb).mp busy
  obtain ⟨keysched, other⟩ := commandEffect_consumes s hn hc
  obtain ⟨key, din⟩ := commandEffect_operands s hc
  refine ⟨keysched, other, (completionStep_key _).trans key, (completionStep_din _).trans din, ?_⟩
  rw [same]
  exact exec_command_with_error (completionStep_busy _)
    (commandError_of_consumed hn hc (completionStep_keyValid _) (completionStep_dinValid _))

end Sys2Proof.Proofs
end
